-- ==== Sys2Proof/Word.lean ====
section
/-! DEFINITION. Word.lean: the bit widths the spec's data have. -/

namespace Sys2Proof

/-- One byte; bit 0 is the least significant (00_scope.md R9, R10). -/
abbrev Byte := BitVec 8

/-- What the host's register port carries: reads are zero-extended to 32 bits (10_state.md R20). -/
abbrev Word := BitVec 32

/-- The mode word: 2 bits, bit 0 PAL_ONLY and bit 1 SPRITE (30_encoding.md R67, R68). -/
abbrev ModeWord := BitVec 2

end Sys2Proof
end

