-- ==== Sys2Proof/Config.lean ====
section
/-! DEFINITION. Config.lean: the fixed constants (00_scope.md R7), the mode words (30_encoding.md R70), the constant
sprite table (30_encoding.md R81), and the free values (93_implementation_defined.md U1, U12, U13). -/

namespace Sys2Proof.Config

/-- Mode word 0b00, tile mode (30_encoding.md R70, R71). -/
abbrev tileWord : ModeWord := 0b00#2
/-- Mode word 0b01, palette mode (30_encoding.md R70, R71). -/
abbrev palWord : ModeWord := 0b01#2
/-- Mode word 0b10, sprite mode (30_encoding.md R70, R71). -/
abbrev sprWord : ModeWord := 0b10#2
/-- Mode word 0b11, both flags set: illegal (30_encoding.md R70, R72). -/
abbrev illegalWord : ModeWord := 0b11#2

/-- PAL_ENTRIES (00_scope.md R7). -/
abbrev palEntries : Nat := 32
/-- TILE_SIZE (00_scope.md R7). -/
abbrev tileSize : Nat := 8
/-- TILE_COUNT (00_scope.md R7). -/
abbrev tileCount : Nat := 256
/-- SPRITE_SIZE (00_scope.md R7). -/
abbrev spriteSize : Nat := 16
/-- SPRITE_COUNT (00_scope.md R7). -/
abbrev spriteCount : Nat := 64

/-- SPRITE_OFFSETS, held as data in the order the spec hard-codes (30_encoding.md R81; 90_conflicts.md C6). -/
def spriteOffsets : Vector (Nat × Nat) 8 :=
  #v[(15, 15), (15, 3), (15, 7), (15, 11), (7, 15), (7, 3), (7, 7), (7, 11)]

/-- FREE VALUE. What the host's output file holds after an error, for the d-th draw: any bytes at all
(93_implementation_defined.md U1, U12; log 10). -/
opaque fileAfterAbort : Nat → List Byte

/-- FREE VALUE. What the host's output file holds beyond the accepted bytes after a reset in a run, for the d-th draw
(93_implementation_defined.md U13; log 10). -/
opaque fileTailAfterReset : Nat → List Byte

end Sys2Proof.Config
end

