-- ==== Sys2Proof/Machine/State.lean ====
section
/-! DEFINITION. Machine/State.lean: everything the spec gives the machine, as plain data, and the state after reset
(10_state.md; 20_memory.md section 1). -/

namespace Sys2Proof.Machine

/-- STATUS.PHASE (10_state.md R22). -/
inductive Phase where
  /-- 0: no run has started since reset. -/
  | idle
  /-- 1: a run has passed validation and is emitting units. -/
  | busy
  /-- 2: the run emitted every unit. -/
  | done
  /-- 3: the run was aborted. -/
  | error
deriving DecidableEq, Repr

/-- One palette entry: three 8-bit channels and nothing else (20_memory.md R49; 92_eei_decisions.md D21). -/
structure RGB where
  r : Byte
  g : Byte
  b : Byte
deriving DecidableEq, Repr

/-- The sink's answer to one unit: all of it accepted, or refused with a 32-bit error word (20_memory.md R55). -/
inductive SinkAnswer where
  | accept
  | refuse (e : Word)
deriving DecidableEq, Repr

/-- `SET name = value` (30_encoding.md R86): a host write of one of the inputs of 10_state.md R30. -/
inductive InputWrite where
  /-- IN_PALETTED (R31). -/
  | paletted (v : Bool)
  /-- IN_W (R32). -/
  | width (v : BitVec 16)
  /-- IN_H (R32). -/
  | height (v : BitVec 16)
  /-- IN_N (R33). -/
  | paletteLen (v : BitVec 16)
  /-- PIX(x, y): one element of the grid (20_memory.md R47). -/
  | pixAt (x y : BitVec 16) (v : Byte)
  /-- PIX as a whole: 0 everywhere except at the listed points, a later one over an earlier (log 17). -/
  | pixAll (points : List (BitVec 16 × BitVec 16 × Byte))
  /-- PALT[i]: one entry of the table (20_memory.md R50). -/
  | paltAt (i : BitVec 16) (c : RGB)
  /-- PALT as a whole: the listed entries from entry 0 on, (0, 0, 0) after them (log 17). -/
  | paltAll (entries : List RGB)
deriving DecidableEq, Repr

/-- One move of an agent (44_sequencer.md R116), in the notation of 30_encoding.md R86. -/
inductive Move where
  /-- The host writes v to register n. Register 6 is CMD, so this is START there (10_state.md R28, R29). -/
  | write (n : Nat) (v : Word)
  /-- `RD`: the host reads register n (44_sequencer.md R123). -/
  | read (n : Nat)
  /-- `SET`: the host writes an input (10_state.md R30). -/
  | set (w : InputWrite)
  /-- `RESET` (70_reset_and_hazards.md R146, R147). -/
  | reset
  /-- `STEP`, `STEP !e`: the core's turn, with the sink's answer to its unit (44_sequencer.md R119; log 2). -/
  | step (answer : SinkAnswer)
deriving DecidableEq, Repr

/-- The machine's state (10_state.md R19). -/
structure State where
  /-- MODE, register 0 (10_state.md R21). -/
  mode : ModeWord
  /-- STATUS.PHASE, register 1 (10_state.md R22). -/
  phase : Phase
  /-- ERR_CODE, register 2 (10_state.md R24). -/
  errCode : BitVec 3
  /-- ERR_EXPECTED, register 3 (10_state.md R25). -/
  errExpected : BitVec 16
  /-- ERR_ACTUAL, register 4 (10_state.md R26). -/
  errActual : BitVec 32
  /-- EMITTED, register 5 (10_state.md R27). -/
  emitted : BitVec 13
  /-- UNIT, the index of the next unit (10_state.md R34). -/
  unitCtr : BitVec 10
  /-- IN_PALETTED (10_state.md R31). -/
  inPaletted : Bool
  /-- IN_W (10_state.md R32). -/
  inW : BitVec 16
  /-- IN_H (10_state.md R32). -/
  inH : BitVec 16
  /-- IN_N (10_state.md R33). -/
  inN : BitVec 16
  /-- PIX, the pixel grid, by pixel key (20_memory.md R45; log 13), in the canonical form of `Memory.wf`. -/
  pix : List Host.Cell
  /-- PALT, the palette table, by entry index (20_memory.md R49), in the canonical form of `Memory.wf`. Entries at or
  beyond IN_N may be held and cannot be read (DESIGN CHOICE, log 22). -/
  palt : List (Nat × RGB)
  /-- OUT, the bytes accepted by the sink of the current run, position 0 first (20_memory.md R52 to R54). -/
  out : List Byte
  /-- The host's output file for that stream (20_memory.md R62 item 4; 93_implementation_defined.md U1; log 10). -/
  hostFile : List Byte
  /-- The model's own: how many free values have been drawn (log 20). -/
  draws : Nat
  /-- The model's own: what the host's register reads returned, oldest first (44_sequencer.md R123; log 15). -/
  hostReads : List Word
  /-- The model's own: the moves still to come, the next one first (44_sequencer.md R116; log 1). -/
  agenda : List Move
deriving DecidableEq, Repr

/-- Why the machine stops. Each is safe: it stops where the spec gives no move or no value. -/
inductive Fault where
  /-- PIX_OUT_OF_RANGE: raised by `pixRead` outside the grid (20_memory.md R48). Safe, and unreachable (R97). -/
  | pixOutOfRange
  /-- Raised by `palRead` at or beyond IN_N, where no entry exists (10_state.md R33; log 7). Safe, and unreachable. -/
  | palOutOfRange
  /-- Raised by a STEP while BUSY in MODE 0b11, which has no unit function (10_state.md R35; log 8). Safe, and
  unreachable. -/
  | unitUndefined
  /-- Raised by any move but RESET when ERR_CODE holds 5..7 (93_implementation_defined.md U6; log 9). Safe, and
  unreachable. -/
  | errCodeReserved
  /-- Raised by START while PHASE = BUSY: the host-duty violation for which there is no move (70_reset_and_hazards.md
  R150; 93_implementation_defined.md U7; log 4). Safe. -/
  | startWhileBusy
  /-- Raised by SET while PHASE = BUSY: the host-duty violation for which there is no move (70_reset_and_hazards.md
  R151; 93_implementation_defined.md U3; log 5). Safe. -/
  | inputChangeWhileBusy
deriving DecidableEq, Repr

/-- Why an instruction is refused. -/
inductive Refusal where
  /-- Raised by an arm of `exec` whose instruction has no meaning yet; no arm of this model raises it. Safe. -/
  | notModelled (mnemonic : String)
deriving DecidableEq, Repr

/-- The machine right after reset (10_state.md R42; 70_reset_and_hazards.md R147). The inputs have no reset value in
the spec: their zeros are a DESIGN CHOICE (log 11), as are the empty stream (log 16) and the model's own fields. -/
def State.reset : State where
  mode := 0b00#2
  phase := .idle
  errCode := 0
  errExpected := 0
  errActual := 0
  emitted := 0
  unitCtr := 0
  inPaletted := false
  inW := 0
  inH := 0
  inN := 0
  pix := []
  palt := []
  out := []
  hostFile := []
  draws := 0
  hostReads := []
  agenda := []

end Sys2Proof.Machine
end

