-- ==== Sys2Proof/Machine/Ops.lean ====
section
/-! DEFINITION. Machine/Ops.lean: the named operations over the two input spaces, the registers and the stream:
reading and writing an input space, beginning a run, emitting a unit, raising an error (the core's only exception),
and reset. The core has no return from an error to put beside it (60_exceptions.md R139): an error is left by the next
START (`beginRun`) or by `resetCore`. -/

namespace Sys2Proof.Machine

/-! ### The input spaces as sparse lists in one canonical form -/

/-- The canonical form: keys strictly rising, and no entry equal to what an unlisted key reads as. -/
abbrev Memory.wf {α : Type} [DecidableEq α] (unset : α) (m : List (Nat × α)) : Prop :=
  m.Pairwise (fun a b => a.1 < b.1) ∧ ∀ c ∈ m, c.2 ≠ unset

/-- Read one element. -/
def Memory.get {α : Type} (unset : α) : List (Nat × α) → Nat → α
  | [], _ => unset
  | (j, w) :: rest, k => if j = k then w else Memory.get unset rest k

/-- Write one element, keeping the canonical form. -/
def Memory.put {α : Type} [DecidableEq α] (unset : α) : List (Nat × α) → Nat → α → List (Nat × α)
  | [], k, v => if v = unset then [] else [(k, v)]
  | (j, w) :: rest, k, v =>
    if k < j then (if v = unset then (j, w) :: rest else (k, v) :: (j, w) :: rest)
    else if k = j then (if v = unset then rest else (k, v) :: rest)
    else (j, w) :: Memory.put unset rest k v

/-- What a pixel the host has not set reads as (DESIGN CHOICE, log 12). -/
def pixUnset : Byte := 0

/-- What a palette entry the host has not set reads as (DESIGN CHOICE, log 12). -/
def paltUnset : RGB := ⟨0, 0, 0⟩

/-- The model's key of the pixel at (x, y). The grid has no linear address (20_memory.md R45): this key only says
where the list keeps the pixel (log 13). Coordinates are below 65536, so no two pixels share one. -/
def pixKey (x y : Nat) : Nat := 65536 * y + x

/-! ### The shared state updates -/

/-- The writes every START makes before it validates: the mode word is latched, the error registers, EMITTED and UNIT
are cleared, and the run's stream begins empty (44_sequencer.md R117; 20_memory.md R53). -/
def beginRun (m : ModeWord) (s : State) : State :=
  { s with
    mode := m, errCode := 0, errExpected := 0, errActual := 0, emitted := 0, unitCtr := 0,
    out := [], hostFile := [] }

/-- START's last write when validation succeeds (44_sequencer.md R117). -/
def enterBusy (s : State) : State := { s with phase := .busy }

/-- What `raise Error(code, expected, actual)` reports (60_exceptions.md R130). -/
structure ErrorReport where
  code : BitVec 3
  expected : BitVec 16
  actual : BitVec 32
deriving DecidableEq, Repr

/-- `raise Error(code, expected, actual)`: the abort, which is the core's trap entry (60_exceptions.md R131). MODE,
UNIT and EMITTED keep their values and nothing is emitted; control goes nowhere. The host's file then holds any bytes
at all (93_implementation_defined.md U1, U12; log 10). -/
def raise (e : ErrorReport) (s : State) : State :=
  { s with
    errCode := e.code, errExpected := e.expected, errActual := e.actual, phase := .error,
    hostFile := Config.fileAfterAbort s.draws, draws := s.draws + 1 }

/-- `Emit(s)` of a unit the sink accepts: its bytes are appended in order to the stream, and to the host's file
(20_memory.md R52, R53, R55). -/
def emitUnit (bytes : List Byte) (s : State) : State :=
  { s with out := s.out ++ bytes, hostFile := s.hostFile ++ bytes }

/-- The counters after an accepted unit of len bytes (44_sequencer.md R119). -/
def advance (len : Nat) (s : State) : State :=
  { s with emitted := s.emitted + BitVec.ofNat 13 len, unitCtr := s.unitCtr + 1 }

/-- The accepted last unit ends the run (44_sequencer.md R120). -/
def finish (s : State) : State := { s with phase := .done }

/-- The host's file after a reset: a run that was under way leaves any bytes beyond the accepted ones, and otherwise
the file is as it was (93_implementation_defined.md U13; 70_reset_and_hazards.md R148; log 10). -/
def fileAfterReset (s : State) : List Byte :=
  if s.phase = .busy then s.out ++ Config.fileTailAfterReset s.draws else s.hostFile

/-- RESET: every piece of core state takes its reset value, in every phase; the inputs and the bytes already in the
sink are the host's and stay (70_reset_and_hazards.md R147, R148; 10_state.md R42). -/
def resetCore (s : State) : State :=
  { s with
    mode := 0b00#2, phase := .idle, errCode := 0, errExpected := 0, errActual := 0, emitted := 0, unitCtr := 0,
    hostFile := fileAfterReset s, draws := s.draws + 1 }

/-- The host's record of one more register read (44_sequencer.md R123; log 15). -/
def recordRead (v : Word) (s : State) : State := { s with hostReads := s.hostReads ++ [v] }

/-- The agenda with its first move taken (log 1). -/
def takeMove (rest : List Move) (s : State) : State := { s with agenda := rest }

end Sys2Proof.Machine
end

