-- ==== Sys2Proof/Machine/Flags.lean ====
section
/-! DEFINITION. Machine/Flags.lean: the status the core shows. It has no arithmetic flags (10_state.md R39): its only
conditions are PHASE and ERR_CODE. -/

namespace Sys2Proof.Machine

/-- STATUS bits [1:0] for each phase (10_state.md R22). -/
def phaseBits : Phase → BitVec 2
  | .idle => 0
  | .busy => 1
  | .done => 2
  | .error => 3

/-- ERR_CODE 0, NONE (10_state.md R24). -/
def errNone : BitVec 3 := 0
/-- ERR_CODE 1, NOT_PALETTED (10_state.md R24). -/
def errNotPaletted : BitVec 3 := 1
/-- ERR_CODE 2, SIZE_MISMATCH (10_state.md R24). -/
def errSizeMismatch : BitVec 3 := 2
/-- ERR_CODE 3, IO_ERROR (10_state.md R24). -/
def errIo : BitVec 3 := 3
/-- ERR_CODE 4, ILLEGAL_MODE (10_state.md R24). -/
def errIllegalMode : BitVec 3 := 4

/-- ERR_CODE values 5..7 are reserved and never produced (10_state.md R24). -/
def errReserved (c : BitVec 3) : Bool := decide (5 ≤ c.toNat)

/-- The level copy of PHASE that an implementation may drive out as `done` (60_exceptions.md R141). -/
def doneSignal (s : State) : Bool := decide (s.phase = .done)

/-- The level copy of PHASE that an implementation may drive out as `error` (60_exceptions.md R141). -/
def errorSignal (s : State) : Bool := decide (s.phase = .error)

/-- ILLEGAL_MODE, with expected and actual 0 (60_exceptions.md R137). -/
def illegalModeReport : ErrorReport := ⟨errIllegalMode, 0, 0⟩

/-- NOT_PALETTED, with expected and actual 0 (60_exceptions.md R133). -/
def notPalettedReport : ErrorReport := ⟨errNotPaletted, 0, 0⟩

/-- SIZE_MISMATCH, with the required and the actual count (60_exceptions.md R134). The widths hold every count the
checks produce (10_state.md R26). -/
def sizeReport (expected actual : Nat) : ErrorReport :=
  ⟨errSizeMismatch, BitVec.ofNat 16 expected, BitVec.ofNat 32 actual⟩

/-- IO_ERROR, with the sink's word unchanged in ERR_ACTUAL (60_exceptions.md R135). -/
def ioReport (e : Word) : ErrorReport := ⟨errIo, 0, e⟩

end Sys2Proof.Machine
end

