-- ==== Sys2Proof/Machine/Operands.lean ====
section
/-! DEFINITION. Machine/Operands.lean: the operand forms. A command's operands are the host inputs
(30_encoding.md R73), reached in the ways of 44_sequencer.md R127: a pixel at a coordinate pair, and a palette entry by
index. -/

namespace Sys2Proof.Machine

/-- `PixRead(x, y)` (20_memory.md R47): the index at (x, y), or the fault PIX_OUT_OF_RANGE outside the grid, negative
coordinates included (20_memory.md R48). -/
def pixRead (s : State) (x y : Int) : Except Fault Byte :=
  if 0 ≤ x ∧ x < s.inW.toNat ∧ 0 ≤ y ∧ y < s.inH.toNat then
    .ok (Memory.get pixUnset s.pix (pixKey x.toNat y.toNat))
  else .error .pixOutOfRange

/-- `P(x, y)`: the two bits of a pixel index that the core uses (20_memory.md R47). -/
def samplePixel (s : State) (x y : Int) : Except Fault (BitVec 2) :=
  (pixRead s x y).map (fun v => v.extractLsb' 0 2)

/-- `PalRead(i)` (20_memory.md R50): entry i, which exists only below IN_N (10_state.md R33; log 7). Below IN_N it is
what the host last set there, whatever IN_N was at the time (DESIGN CHOICE, log 22). -/
def palRead (s : State) (i : Nat) : Except Fault RGB :=
  if i < s.inN.toNat then .ok (Memory.get paltUnset s.palt i) else .error .palOutOfRange

/-- The whole grid the host sets: 0 everywhere except at the listed points (log 17). -/
def gridOf (points : List (BitVec 16 × BitVec 16 × Byte)) : List Host.Cell :=
  points.foldl (fun m p => Memory.put pixUnset m (pixKey p.1.toNat p.2.1.toNat) p.2.2) []

/-- The entries from index i on, each written in its place (log 17). -/
def paletteOf : Nat → List RGB → List (Nat × RGB) → List (Nat × RGB)
  | _, [], m => m
  | i, c :: rest, m => paletteOf (i + 1) rest (Memory.put paltUnset m i c)

/-- A host write of one input (10_state.md R30; 30_encoding.md R86). Three points are DESIGN CHOICE, since the spec is
silent: a pixel set outside the present W and H is kept, and is readable once they take it in (log 13); a palette entry
set at or beyond the present IN_N is kept, and is readable once IN_N grows past it (log 22); and a change of IN_W, IN_H
or IN_N forgets no pixel and no entry (log 13, 22). -/
def applyInput (w : InputWrite) (s : State) : State :=
  match w with
  | .paletted v => { s with inPaletted := v }
  | .width v => { s with inW := v }
  | .height v => { s with inH := v }
  | .paletteLen v => { s with inN := v }
  | .pixAt x y v => { s with pix := Memory.put pixUnset s.pix (pixKey x.toNat y.toNat) v }
  | .pixAll points => { s with pix := gridOf points }
  | .paltAt i c => { s with palt := Memory.put paltUnset s.palt i.toNat c }
  | .paltAll entries => { s with palt := paletteOf 0 entries [] }

end Sys2Proof.Machine
end

