-- ==== Sys2Proof/Machine/Palette.lean ====
section
/-! DEFINITION. Machine/Palette.lean: the palette colour encoder (40_palette.md). -/

namespace Sys2Proof.Machine

/-- `ENC_COLOR(R, G, B)`: truncation by masking and shifting, as the spec's formula has it (40_palette.md R87;
30_encoding.md R74). -/
def encColor (c : RGB) : Byte :=
  (c.b &&& 0b11000000#8) ||| ((c.g &&& 0b11100000#8) >>> 2) ||| ((c.r &&& 0b11100000#8) >>> 5)

/-- `unit_PAL(u)`: the one byte of palette entry u (40_palette.md R89). -/
def unitPal (s : State) (u : Nat) : Except Fault (List Byte) :=
  (palRead s u).map (fun c => [encColor c])

/-- The palette check: the length must be 32 (40_palette.md R90). It looks at no other input (R92). -/
def palCheck (s : State) : Except ErrorReport Unit :=
  if s.inN.toNat ≠ Config.palEntries then .error (sizeReport Config.palEntries s.inN.toNat) else .ok ()

end Sys2Proof.Machine
end

