-- ==== Sys2Proof/Machine/Band.lean ====
section
/-! DEFINITION. Machine/Band.lean: the band encoder (41_band_encoder.md). -/

namespace Sys2Proof.Machine

/-- One pixel into a column's byte: its bit 0 at bit r, its bit 1 at bit 4 + r (41_band_encoder.md R93). -/
def putPixel (byte : Byte) (r : Nat) (pix : BitVec 2) : Byte :=
  byte ||| ((pix.extractLsb' 0 1).zeroExtend 8 <<< r) ||| ((pix.extractLsb' 1 1).zeroExtend 8 <<< (4 + r))

/-- Rows r = 0..3 of column offset c, the inner loop of `ENC_8X4` (41_band_encoder.md R93). -/
def encColumn (s : State) (x y c : Nat) : Except Fault Byte :=
  [0, 1, 2, 3].foldlM
    (fun byte (r : Nat) => do
      let pix ← samplePixel s ((x : Int) - c) ((y : Int) - r)
      pure (putPixel byte r pix))
    0

/-- `ENC_8X4(x, y)`: the 8 bytes of the band whose bottom-right pixel is (x, y), the rightmost column first
(41_band_encoder.md R93, R98; 30_encoding.md R75, R76). -/
def enc8x4 (s : State) (x y : Nat) : Except Fault (List Byte) :=
  [0, 1, 2, 3, 4, 5, 6, 7].mapM (fun c => encColumn s x y c)

end Sys2Proof.Machine
end

