-- ==== Sys2Proof/Machine/Sprite.lean ====
section
/-! DEFINITION. Machine/Sprite.lean: the sprite compositor (43_sprite_mode.md). -/

namespace Sys2Proof.Machine

/-- `ENC_SPRITE(sx, sy)`: the eight bands in table order from the sprite's origin, its top-left pixel
(43_sprite_mode.md R107, R108, R113). -/
def encSprite (s : State) (sx sy : Nat) : Except Fault (List Byte) := do
  let bands ← Config.spriteOffsets.toList.mapM (fun d => enc8x4 s (16 * sx + d.1) (16 * sy + d.2))
  pure bands.flatten

/-- `unit_SPR(u)`: sub-block u mod 8 of sprite u div 8, sprites in raster order (43_sprite_mode.md R109, R110). -/
def unitSprite (s : State) (u : Nat) : Except Fault (List Byte) :=
  let sw := s.inW.toNat / Config.spriteSize
  let n := u / 8
  let k := u % 8
  let sx := n % sw
  let sy := n / sw
  let d := Config.spriteOffsets[k]'(Nat.mod_lt u (by decide))
  enc8x4 s (16 * sx + d.1) (16 * sy + d.2)

/-- The number of whole sprite cells in the grid, by floor division (43_sprite_mode.md R111). -/
def spritesInGrid (s : State) : Nat := (s.inW.toNat / Config.spriteSize) * (s.inH.toNat / Config.spriteSize)

/-- The sprite check: both dimensions multiples of 16, and exactly 64 sprites (43_sprite_mode.md R111). It looks at no
other input, and there is no cap (R114). -/
def spriteCheck (s : State) : Except ErrorReport Unit :=
  if s.inW.toNat % Config.spriteSize ≠ 0 ∨ s.inH.toNat % Config.spriteSize ≠ 0
      ∨ spritesInGrid s ≠ Config.spriteCount then
    .error (sizeReport Config.spriteCount (spritesInGrid s))
  else .ok ()

end Sys2Proof.Machine
end

