-- ==== Sys2Proof/Machine/Tile.lean ====
section
/-! DEFINITION. Machine/Tile.lean: the tile assembler (42_tile_mode.md). -/

namespace Sys2Proof.Machine

/-- `ENC_TILE(cx, cy)`: the lower band, then the upper band (42_tile_mode.md R99). -/
def encTile (s : State) (cx cy : Nat) : Except Fault (List Byte) := do
  let lower ← enc8x4 s (8 * cx + 7) (8 * cy + 7)
  let upper ← enc8x4 s (8 * cx + 7) (8 * cy + 3)
  pure (lower ++ upper)

/-- `unit_TILE(u)`: band u mod 2 of tile u div 2, tiles in raster order (42_tile_mode.md R100, R101). -/
def unitTile (s : State) (u : Nat) : Except Fault (List Byte) :=
  let tw := s.inW.toNat / Config.tileSize
  let t := u / 2
  let b := u % 2
  let cx := t % tw
  let cy := t / tw
  enc8x4 s (8 * cx + 7) (8 * cy + 7 - 4 * b)

/-- The number of whole tiles in the grid, by floor division (42_tile_mode.md R102). -/
def tilesInGrid (s : State) : Nat := (s.inW.toNat / Config.tileSize) * (s.inH.toNat / Config.tileSize)

/-- The tile check: both dimensions multiples of 8, and exactly 256 tiles (42_tile_mode.md R102). It looks at no other
input (R105), and there is no traversal cap (R104). -/
def tileCheck (s : State) : Except ErrorReport Unit :=
  if s.inW.toNat % Config.tileSize ≠ 0 ∨ s.inH.toNat % Config.tileSize ≠ 0 ∨ tilesInGrid s ≠ Config.tileCount then
    .error (sizeReport Config.tileCount (tilesInGrid s))
  else .ok ()

end Sys2Proof.Machine
end

