-- ==== Sys2Proof/Machine/Sequencer.lean ====
section
/-! DEFINITION. Machine/Sequencer.lean: what the modes share: TOTAL, validation, START, the unit function, STEP, and
the images (44_sequencer.md). -/

namespace Sys2Proof.Machine

/-- `TOTAL(MODE)`, not defined for 0b11 (10_state.md R35). -/
def totalUnits (m : ModeWord) : Option Nat :=
  if m = Config.palWord then some 32
  else if m = Config.tileWord then some 512
  else if m = Config.sprWord then some 512
  else none

/-- The bytes of one unit in each mode (10_state.md R35). -/
def bytesPerUnit (m : ModeWord) : Nat := if m = Config.palWord then 1 else 8

/-- `validate(m)`: the checks in order, the first failure being the result (44_sequencer.md R118; 60_exceptions.md
R138). -/
def validate (m : ModeWord) (s : State) : Except ErrorReport Unit :=
  if m = Config.illegalWord then .error illegalModeReport
  else if s.inPaletted = false then .error notPalettedReport
  else if m = Config.palWord then palCheck s
  else if m = Config.tileWord then tileCheck s
  else spriteCheck s

/-- START with mode word m (44_sequencer.md R117). While BUSY it has no move, a named stuck state
(70_reset_and_hazards.md R150; 93_implementation_defined.md U7; log 4). -/
def start (m : ModeWord) (s : State) : Host.Outcome State Fault Refusal :=
  if s.phase = .busy then .fault .startWhileBusy
  else
    match validate m (beginRun m s) with
    | .error e => .next (raise e (beginRun m s))
    | .ok _ => .next (enterBusy (beginRun m s))

/-- `unit(MODE, u)` (44_sequencer.md R119). No mode 0b11 run exists, so there it is a named fault (log 8). -/
def unitOf (m : ModeWord) (s : State) (u : Nat) : Except Fault (List Byte) :=
  if m = Config.palWord then unitPal s u
  else if m = Config.tileWord then unitTile s u
  else if m = Config.sprWord then unitSprite s u
  else .error .unitUndefined

/-- The state after the sink accepts a unit: the bytes are appended, the counters advance, and the run is DONE when the
new UNIT is TOTAL (44_sequencer.md R119, R120; 00_scope.md R13). -/
def acceptUnit (bytes : List Byte) (s : State) : State :=
  let s1 := advance bytes.length (emitUnit bytes s)
  if some s1.unitCtr.toNat = totalUnits s1.mode then finish s1 else s1

/-- STEP, with the sink's answer (44_sequencer.md R119, R121). It is enabled exactly when PHASE = BUSY; a quiescent
core takes no step and changes nothing (44_sequencer.md R122; log 3). -/
def coreStep (answer : SinkAnswer) (s : State) : Host.Outcome State Fault Refusal :=
  if s.phase = .busy then
    match unitOf s.mode s s.unitCtr.toNat with
    | .error r => .fault r
    | .ok bytes =>
      match answer with
      | .accept => .next (acceptUnit bytes s)
      | .refuse e => .next (raise (ioReport e) s)
  else .next s

/-- Units 0 to n - 1 of mode m, in order: what the sink holds after n accepted units (44_sequencer.md R125). -/
def streamOf (m : ModeWord) (s : State) : Nat → Except Fault (List Byte)
  | 0 => .ok []
  | n + 1 => do
    let before ← streamOf m s n
    let last ← unitOf m s n
    pure (before ++ last)

/-- `image(m)`: palette_image, tile_image or sprite_image (44_sequencer.md R125; 40_palette.md R89; 42_tile_mode.md
R100; 43_sprite_mode.md R109). -/
def image (m : ModeWord) (s : State) : Except Fault (List Byte) :=
  match totalUnits m with
  | some n => streamOf m s n
  | none => .error .unitUndefined

/-- The first refusal among a run's answers: its unit and its error word (44_sequencer.md R125). -/
def firstRefusal : List SinkAnswer → Option (Nat × Word)
  | [] => none
  | .refuse e :: _ => some (0, e)
  | .accept :: rest => (firstRefusal rest).map (fun p => (p.1 + 1, p.2))

end Sys2Proof.Machine
end

