-- ==== Sys2Proof/Machine/Start.lean ====
section
/-! DEFINITION. Machine/Start.lean: the meaning of each command of the opcode map, and of the one mode word that is no
command (30_encoding.md R70). -/

namespace Sys2Proof.Machine

/-- START.TILE: MODE takes 0b00, the tile check decides (42_tile_mode.md R103). -/
def execStartTile (s : State) : Host.Outcome State Fault Refusal := start 0b00#2 s

/-- START.PAL: MODE takes 0b01, the palette check decides (40_palette.md R91). -/
def execStartPal (s : State) : Host.Outcome State Fault Refusal := start 0b01#2 s

/-- START.SPR: MODE takes 0b10, the sprite check decides (43_sprite_mode.md R112). -/
def execStartSpr (s : State) : Host.Outcome State Fault Refusal := start 0b10#2 s

/-- `START #0b11`: MODE latches 0b11 as written and the run ends with ILLEGAL_MODE (10_state.md R21; 60_exceptions.md
R137). -/
def startIllegal (s : State) : Host.Outcome State Fault Refusal := start 0b11#2 s

end Sys2Proof.Machine
end

