-- ==== Sys2Proof/Syntax.lean ====
section
/-! DEFINITION. Syntax.lean: the command set, one constructor per row of spec/opcode_table.json. -/

namespace Sys2Proof

/-- The core's commands (30_encoding.md R67, R70). START has no operand beyond its mode word: what it works on are the
host inputs (30_encoding.md R73), so no constructor has an argument. -/
inductive Instr where
  /-- START.TILE: start a tile-mode run (42_tile_mode.md R103). -/
  | startTile
  /-- START.PAL: start a palette-mode run (40_palette.md R91). -/
  | startPal
  /-- START.SPR: start a sprite-mode run (43_sprite_mode.md R112). -/
  | startSpr
deriving DecidableEq, Repr

end Sys2Proof
end

