-- ==== Sys2Proof/Machine/Dispatch.lean ====
section
/-! DEFINITION. Machine/Dispatch.lean: one arm per command (30_encoding.md R70). -/

namespace Sys2Proof.Machine

def exec (i : Instr) (s : State) : Host.Outcome State Fault Refusal :=
  match i with
  | .startTile => Sys2Proof.Machine.execStartTile s
  | .startPal => Sys2Proof.Machine.execStartPal s
  | .startSpr => Sys2Proof.Machine.execStartSpr s

end Sys2Proof.Machine
end

