-- ==== Sys2Proof/WellFormed.lean ====
section
/-! DEFINITION. WellFormed.lean: which mode words are commands, and which instructions are well formed. -/

namespace Sys2Proof

/-- A mode word is legal when at most one of its flags is set: 0b11 has no mode (30_encoding.md R70, R72). -/
def ModeWord.legal (m : ModeWord) : Bool := m != Config.illegalWord

/-- Every instruction is well formed: START has no operand that could be out of range (30_encoding.md R73). -/
def Instr.wf : Instr → Bool
  | .startTile => true
  | .startPal => true
  | .startSpr => true

end Sys2Proof
end

