-- ==== Sys2Proof/Decode.lean ====
section
/-! DEFINITION. Decode.lean: from the value written to CMD to a command, and back (30_encoding.md section 1). -/

namespace Sys2Proof

/-- Why a mode word is no command. -/
inductive DecodeRefusal where
  /-- Mode word 0b11, both flags set (30_encoding.md R72). The machine raises ILLEGAL_MODE for it (60_exceptions.md
  R137), so refusing to decode it loses nothing: safe. -/
  | illegalModeWord
deriving DecidableEq, Repr

/-- The PAL_ONLY flag, bit 0 of the mode word (30_encoding.md R68). -/
def palOnly (m : ModeWord) : Bool := m.getLsbD 0

/-- The SPRITE flag, bit 1 of the mode word (30_encoding.md R68). -/
def spriteFlag (m : ModeWord) : Bool := m.getLsbD 1

/-- The decoder reads both flags and selects one row of the opcode map (30_encoding.md R69, R70). -/
def decodeModeWord (m : ModeWord) : Except DecodeRefusal Instr :=
  match spriteFlag m, palOnly m with
  | false, false => .ok .startTile
  | false, true => .ok .startPal
  | true, false => .ok .startSpr
  | true, true => .error .illegalModeWord

/-- The mode word of a value written to CMD: bits above bit 1 are ignored (10_state.md R28; 30_encoding.md R69). -/
def modeWordOf (v : Word) : ModeWord := v.extractLsb' 0 2

/-- Decoding of a value written to CMD. -/
def decodeCmd (v : Word) : Except DecodeRefusal Instr := decodeModeWord (modeWordOf v)

/-- The CMD value that carries an instruction whose bits are w, numbered as the opcode table numbers them: bit 0 is the
least significant, and every bit from nbits up is 0 (log 14). -/
def cmdValue (nbits w : Nat) : Word := BitVec.ofNat 32 (w % 2 ^ nbits)

/-- What the decoder reads from an instruction whose bits are w. -/
def decodeTableWord (nbits w : Nat) : Option Instr :=
  match decodeCmd (cmdValue nbits w) with
  | .ok i => some i
  | .error _ => none

/-- The mode word of a command (30_encoding.md R70, R86). -/
def encode : Instr → ModeWord
  | .startTile => Config.tileWord
  | .startPal => Config.palWord
  | .startSpr => Config.sprWord

/-- The value the host writes to CMD for a command: the mode word, zero bits above it (30_encoding.md R86). -/
def encodeCmd (i : Instr) : Word := (encode i).zeroExtend 32

end Sys2Proof
end

