-- ==== Sys2Proof/Machine/HostPort.lean ====
section
/-! DEFINITION. Machine/HostPort.lean: the host's register port and its inputs (10_state.md sections 2 and 3). -/

namespace Sys2Proof.Machine

/-- The register number of CMD (10_state.md R20). -/
abbrev cmdNumber : Nat := 6

/-- A read of register n: its value zero-extended to 32 bits; CMD and every number above it read 0 (10_state.md R20,
R28). -/
def readReg (n : Nat) (s : State) : Word :=
  match n with
  | 0 => s.mode.zeroExtend 32
  | 1 => (phaseBits s.phase).zeroExtend 32
  | 2 => s.errCode.zeroExtend 32
  | 3 => s.errExpected.zeroExtend 32
  | 4 => s.errActual
  | 5 => s.emitted.zeroExtend 32
  | _ => 0

/-- `RD`: the host gets the register's value; the core is unchanged (44_sequencer.md R123; 10_state.md R29). -/
def hostRead (n : Nat) (s : State) : State := recordRead (readReg n s) s

/-- `SET`: a host write of an input, while PHASE is not BUSY. While BUSY it has no move, a named stuck state
(70_reset_and_hazards.md R151; 93_implementation_defined.md U3; log 5). -/
def setInput (w : InputWrite) (s : State) : Host.Outcome State Fault Refusal :=
  if s.phase = .busy then .fault .inputChangeWhileBusy else .next (applyInput w s)

/-! ### The registers on a bus

REG_PLACEMENT is an open parameter: a map from register number to bus address that a model takes as an argument
(00_scope.md R8; 20_memory.md R59; 92_eei_decisions.md D25; log 18). -/

/-- The register the platform places at an address, if it places one there. -/
def registerAt (placement : Nat → Nat) (addr : Nat) : Option Nat :=
  (List.range 7).find? (fun n => placement n == addr)

/-- A host read at a bus address is the read of the register placed there. -/
def busRead (placement : Nat → Nat) (addr : Nat) : Option Move := (registerAt placement addr).map Move.read

/-- A host write at a bus address is the write of the register placed there. -/
def busWrite (placement : Nat → Nat) (addr : Nat) (v : Word) : Option Move :=
  (registerAt placement addr).map (fun n => Move.write n v)

end Sys2Proof.Machine
end

