-- ==== Sys2Proof/Machine/Turn.lean ====
section
/-! DEFINITION. Machine/Turn.lean: which move comes next, and every move but a command. The machine fetches no program
(10_state.md R38): a command reaches it as a host write to CMD. -/

namespace Sys2Proof.Machine

/-- One turn: a command to run, or a move that is already made. -/
inductive Turn where
  | run (i : Instr) (s : State)
  | made (o : Host.Outcome State Fault Refusal)

/-- A host register write: CMD takes a command, every other number ignores the write (10_state.md R20, R28, R29). -/
def hostWrite (n : Nat) (v : Word) (s : State) : Turn :=
  if n = cmdNumber then
    match decodeCmd v with
    | .ok i => .run i s
    | .error .illegalModeWord => .made (startIllegal s)
  else .made (.next s)

/-- Make one move (44_sequencer.md R116). -/
def makeMove (a : Move) (s : State) : Turn :=
  match a with
  | .write n v => hostWrite n v s
  | .read n => .made (.next (hostRead n s))
  | .set w => .made (setInput w s)
  | .reset => .made (.next (resetCore s))
  | .step answer => .made (coreStep answer s)

/-- Whether the next move is RESET, which is enabled in every state (70_reset_and_hazards.md R147). -/
def resetIsNext (s : State) : Bool :=
  match s.agenda with
  | .reset :: _ => true
  | _ => false

/-- The next turn. With no move to come, nobody acts: a quiescent core changes nothing, and a BUSY core waits for the
sink (44_sequencer.md R122; 70_reset_and_hazards.md R158; log 1). An ERR_CODE of 5..7 is a fault
(93_implementation_defined.md U6; log 9). -/
def turn (s : State) : Turn :=
  if errReserved s.errCode && !resetIsNext s then .made (.fault .errCodeReserved)
  else
    match s.agenda with
    | [] => .made (.next s)
    | a :: rest => makeMove a (takeMove rest s)

/-- s with a host write of the CMD value v as its very next move. -/
def withCommand (s : State) (v : Word) : State := takeMove (.write cmdNumber v :: s.agenda) s

end Sys2Proof.Machine
end

