-- ==== Sys2Proof/Machine/Step.lean ====
section
/-! DEFINITION. Machine/Step.lean: one step of the machine (host and core together), and the place a command is put so
that the next step runs it. -/

namespace Sys2Proof.Machine

/-- One step: the next turn's move, or the meaning of the command it carries (44_sequencer.md R116). -/
def step (s : State) : Host.Outcome State Fault Refusal :=
  match turn s with
  | .run i t => exec i t
  | .made o => o

/-- s with the host's write of that command to CMD as its very next move (log 1, 14). -/
def State.withFetchWord (s : State) (nbits w : Nat) : State := withCommand s (cmdValue nbits w)

end Sys2Proof.Machine
end

