-- ==== Sys2Proof/Safety.lean ====
section
/-! DEFINITION. Safety.lean: what a safe run is, in the terms the claims use: the state invariants of 10_state.md R43,
the host's duties of 70_reset_and_hazards.md R150 and R151, and when the stream is valid (R152). -/

namespace Sys2Proof.Machine

/-- Both input spaces are in canonical form. -/
abbrev State.memWf (s : State) : Prop := Memory.wf pixUnset s.pix ∧ Memory.wf paltUnset s.palt

/-- The registers obey the state invariants (10_state.md R43); ERR_CODE is not NONE exactly in ERROR and never 5..7
(10_state.md R24); ERR_EXPECTED and ERR_ACTUAL hold what each code asks for (10_state.md R25, R26). -/
structure RegInv (s : State) : Prop where
  idle : s.phase = .idle →
    s.emitted = 0 ∧ s.unitCtr = 0
  busy : s.phase = .busy →
    ∃ n, totalUnits s.mode = some n ∧ s.unitCtr.toNat < n
      ∧ s.emitted.toNat = s.unitCtr.toNat * bytesPerUnit s.mode
  done : s.phase = .done →
    ∃ n, totalUnits s.mode = some n ∧ s.unitCtr.toNat = n ∧ s.emitted.toNat = n * bytesPerUnit s.mode
  errCode_iff : s.errCode ≠ errNone ↔ s.phase = .error
  errCode_legal : errReserved s.errCode = false
  report_none : s.errCode = errNone → s.errExpected = 0 ∧ s.errActual = 0
  report_plain : s.errCode = errNotPaletted ∨ s.errCode = errIllegalMode → s.errExpected = 0 ∧ s.errActual = 0
  report_io : s.errCode = errIo → s.errExpected = 0
  report_size : s.errCode = errSizeMismatch →
    (s.mode = Config.palWord ∧ s.errExpected = 32) ∨ (s.mode = Config.tileWord ∧ s.errExpected = 256)
      ∨ (s.mode = Config.sprWord ∧ s.errExpected = 64)

/-- A BUSY run has passed validation under inputs that still stand (70_reset_and_hazards.md R151), and the stream
holds exactly its first UNIT units (20_memory.md R62; 44_sequencer.md R125); EMITTED counts the stream's bytes
(10_state.md R27); in a run not aborted the host's file holds the stream. -/
structure RunInv (s : State) : Prop where
  validated : s.phase = .busy → validate s.mode s = .ok ()
  stream : s.phase = .busy → streamOf s.mode s s.unitCtr.toNat = .ok s.out
  counted : s.phase ≠ .idle → s.out.length = s.emitted.toNat
  file : s.phase = .busy ∨ s.phase = .done → s.hostFile = s.out

/-- The invariant of every reachable state. -/
structure CoreInv (s : State) : Prop where
  mem : s.memWf
  regs : RegInv s
  run : RunInv s

/-- A move the host's duties forbid in this state: a START or an input change while BUSY (70_reset_and_hazards.md
R150, R151). -/
def breaksDuty (s : State) (a : Move) : Prop :=
  s.phase = .busy ∧ match a with
    | .write n _ => n = cmdNumber
    | .set _ => True
    | .read _ => False
    | .reset => False
    | .step _ => False

/-- The next move, if there is one, keeps the host's duties. -/
def keepsDuties (s : State) : Prop := ∀ a rest, s.agenda = a :: rest → ¬ breaksDuty s a

/-- The stream may be used: the run ended in DONE (70_reset_and_hazards.md R152). -/
def streamValid (s : State) : Prop := s.phase = .done

/-- The host's inputs are the same in two states (10_state.md R30). -/
structure SameInputs (s t : State) : Prop where
  inPaletted : s.inPaletted = t.inPaletted
  inW : s.inW = t.inW
  inH : s.inH = t.inH
  inN : s.inN = t.inN
  pix : s.pix = t.pix
  palt : s.palt = t.palt

/-- The core's registers are the same in two states (10_state.md R42). -/
structure SameRegs (s t : State) : Prop where
  mode : s.mode = t.mode
  phase : s.phase = t.phase
  errCode : s.errCode = t.errCode
  errExpected : s.errExpected = t.errExpected
  errActual : s.errActual = t.errActual
  emitted : s.emitted = t.emitted
  unitCtr : s.unitCtr = t.unitCtr

/-- What only a host action changes is the same in two states: the inputs, what the host has read, and the moves to
come. -/
structure SameHost (s t : State) : Prop where
  inputs : SameInputs s t
  hostReads : s.hostReads = t.hostReads
  agenda : s.agenda = t.agenda

/-- The read of every pixel and of every palette entry is the same in two states: memory is unchanged. -/
structure SameSpaces (s t : State) : Prop where
  pix : ∀ k, Memory.get pixUnset s.pix k = Memory.get pixUnset t.pix k
  palt : ∀ i, Memory.get paltUnset s.palt i = Memory.get paltUnset t.palt i

end Sys2Proof.Machine
end

