-- ==== Sys2Proof/Certificates/Slice0/Obligations.lean ====
section
/-! DEFINITION. Certificates/Slice0/Obligations.lean: the statements for the provers, from the numbered rules of spec/. -/

open Sys2Proof Sys2Proof.Machine

/-- After reset every piece of core state has its reset value. States R42.
In State.reset MODE is 0b00, PHASE is IDLE, and ERR_CODE, ERR_EXPECTED, ERR_ACTUAL, EMITTED and UNIT are 0; CMD has
no storage and reads 0 in every state. The inputs and the stream are not core state and the statement says nothing
of them. -/
def Obligations.ResetLeavesSpecValues : Prop :=
  State.reset.mode = 0b00#2 ∧ State.reset.phase = .idle ∧ State.reset.errCode = 0 ∧ State.reset.errExpected = 0
    ∧ State.reset.errActual = 0 ∧ State.reset.emitted = 0 ∧ State.reset.unitCtr = 0
    ∧ ∀ s : State, readReg 6 s = 0

/-- The invariant holds at reset. Rests on 10_state.md R42, R43; 70_reset_and_hazards.md R147.
State.reset meets CoreInv: the state invariants of R43, the ERR_CODE, ERR_EXPECTED and ERR_ACTUAL rules, the
canonical form of both input spaces, and the stream clauses. -/
def Obligations.ResetMeetsInvariant : Prop :=
  CoreInv State.reset

/-- Every step from a state that meets the invariant gives one that meets it. Rests on 10_state.md R43; 10_state.md R24,
R25, R26, R27; 44_sequencer.md R117 to R121, R125; 70_reset_and_hazards.md R151.
For every state s with CoreInv s, if step s answers next t then CoreInv t. CoreInv holds the four clauses of R43,
ERR_CODE not NONE exactly in ERROR and never 5..7, the values ERR_EXPECTED and ERR_ACTUAL take under each code, the
canonical form of the grid and the palette, and, while BUSY, that the inputs still pass validation and that the
stream is exactly units 0 to UNIT - 1; EMITTED counts the stream's bytes, and the host's file holds the stream in
BUSY and DONE. -/
def Obligations.StepKeepsInvariant : Prop :=
  ∀ s t : State, CoreInv s → step s = .next t → CoreInv t

/-- Under the host's duties a step from the invariant always answers a next state. Rests on 41_band_encoder.md R97;
20_memory.md R48; 10_state.md R43; 70_reset_and_hazards.md R150, R151; 93_implementation_defined.md U4, U6.
For every state s with CoreInv s whose next move, if any, is not a START or an input write while BUSY, step s
answers a next state: PIX_OUT_OF_RANGE and every other fault is unreachable. The two duties are R150 and R151; the
fault for a reserved ERR_CODE is U6. -/
def Obligations.DutifulStepNeverFaults : Prop :=
  ∀ s : State, CoreInv s → keepsDuties s → ∃ t, step s = .next t

/-- A START or an input write while BUSY has no move. Rests on 70_reset_and_hazards.md R150, R151;
93_implementation_defined.md U3, U7.
While PHASE is BUSY (and ERR_CODE is not reserved) a CMD write gives no next state, and neither does an input write;
the model names the two stuck states startWhileBusy and inputChangeWhileBusy (log 4, 5: the names are the model's). -/
def Obligations.DutyBreachHasNoMove : Prop :=
  ∀ (s : State) rest, s.phase = .busy → errReserved s.errCode = false →
    (∀ v, s.agenda = .write 6 v :: rest → step s = .fault .startWhileBusy) ∧
    (∀ w, s.agenda = .set w :: rest → step s = .fault .inputChangeWhileBusy)

/-- A reserved ERR_CODE stops the machine, but for RESET. Rests on 93_implementation_defined.md U6; 10_state.md R24;
70_reset_and_hazards.md R147.
In a state whose ERR_CODE holds 5, 6 or 7, step is the fault errCodeReserved unless the next move is RESET, which
still runs and leaves ERR_CODE NONE. That RESET is exempt is the model's choice (log 9). -/
def Obligations.ReservedErrCodeFaults : Prop :=
  ∀ s : State, 5 ≤ s.errCode.toNat →
    ((∀ rest, s.agenda ≠ .reset :: rest) → step s = .fault .errCodeReserved) ∧
    (∀ rest, s.agenda = .reset :: rest → ∃ t, step s = .next t ∧ t.errCode = errNone)

/-- The opcode map's words decode to the commands they stand for. Rests on 30_encoding.md R70.
Words written out from the opcode map: 00 is START.TILE, 01 is START.PAL, 10 is START.SPR and 11 is refused; a CMD
value with bits above bit 1 set decodes by bits 1 and 0 alone. -/
def Obligations.DecodeSampleWords : Prop :=
  decodeTableWord 8 0b00 = some .startTile ∧ decodeTableWord 8 0b01 = some .startPal
    ∧ decodeTableWord 8 0b10 = some .startSpr ∧ decodeTableWord 8 0b11 = none
    ∧ decodeCmd 0xFFFFFFFC#32 = .ok .startTile ∧ decodeCmd 0x00000105#32 = .ok .startPal
    ∧ decodeCmd 0x8000000A#32 = .ok .startSpr ∧ decodeCmd 0xFFFFFFFF#32 = .error .illegalModeWord

/-- Decode and encode agree on every CMD value and every table word. Rests on 30_encoding.md R67, R69, R70, R72;
10_state.md R28.
Every command's CMD value decodes to it; a CMD value decodes to a command exactly when its value modulo 4 is that
command's mode word, and is refused exactly when that is 3; and a table word of at least 2 bits decodes by its low
two bits alone, whatever its length. -/
def Obligations.DecodeAndEncodeAgree : Prop :=
  (∀ i, i.wf = true → decodeCmd (encodeCmd i) = .ok i) ∧
  (∀ v i, decodeCmd v = .ok i ↔ v.toNat % 4 = (encode i).toNat) ∧
  (∀ v, decodeCmd v = .error .illegalModeWord ↔ v.toNat % 4 = 3) ∧
  (∀ nbits w i, 2 ≤ nbits → (decodeTableWord nbits w = some i ↔ w % 4 = (encode i).toNat))

/-- A step on a CMD write is exec of the command the value decodes to. Rests on 30_encoding.md R69, R70; 44_sequencer.md
R117; 10_state.md R28.
When ERR_CODE is not reserved and the next move is a host write of v to CMD, and v decodes to the command i, step is
exec of i in the state with that move taken; nothing else is added around exec. withFetchWord places exactly such a
move. -/
def Obligations.StepRunsDecodedCommand : Prop :=
  (∀ (s : State) v rest i, errReserved s.errCode = false → s.agenda = .write 6 v :: rest → decodeCmd v = .ok i →
    step s = exec i { s with agenda := rest }) ∧
  (∀ (s : State) nbits w i, errReserved s.errCode = false → decodeTableWord nbits w = some i →
    step (s.withFetchWord nbits w) = exec i s)

/-- Bits above bit 1 of a CMD value change nothing. States R69.
Two CMD values with the same bits 1 and 0 decode alike, select the row of those two bits, and step alike from every
state. -/
def Obligations.CmdHighBitsAreIgnored : Prop :=
  ∀ v v' : Word, v.getLsbD 0 = v'.getLsbD 0 → v.getLsbD 1 = v'.getLsbD 1 →
    (decodeCmd v = match v.getLsbD 1, v.getLsbD 0 with
      | false, false => .ok .startTile
      | false, true => .ok .startPal
      | true, false => .ok .startSpr
      | true, true => .error .illegalModeWord) ∧
    decodeCmd v = decodeCmd v' ∧
    ∀ (s : State) rest, step { s with agenda := .write 6 v :: rest } = step { s with agenda := .write 6 v' :: rest }

/-- START.TILE completes: on a paletted grid of exactly 256 whole tiles the run is BUSY. Rests on 42_tile_mode.md R103,
R102; 44_sequencer.md R117.
When PHASE is not BUSY, IN_PALETTED = 1, IN_W and IN_H are multiples of 8 and (IN_W/8)*(IN_H/8) = 256, START.TILE
answers the state with MODE 0b00, PHASE BUSY, the error registers, EMITTED and UNIT 0 and an empty stream, and every
other field unchanged. -/
def Obligations.StartTileAdmitsValidGrid : Prop :=
  ∀ s : State, s.phase ≠ .busy → s.inPaletted = true → s.inW.toNat % 8 = 0 → s.inH.toNat % 8 = 0 →
      (s.inW.toNat / 8) * (s.inH.toNat / 8) = 256 →
      exec .startTile s = .next { s with
        mode := 0b00#2, phase := .busy, errCode := 0, errExpected := 0, errActual := 0, emitted := 0, unitCtr := 0,
        out := [], hostFile := [] }

/-- START.PAL completes: on a paletted image with 32 entries the run is BUSY. Rests on 40_palette.md R91, R90;
44_sequencer.md R117.
When PHASE is not BUSY, IN_PALETTED = 1 and IN_N = 32, START.PAL answers the state with MODE 0b01, PHASE BUSY, the
error registers, EMITTED and UNIT 0 and an empty stream, and every other field unchanged. -/
def Obligations.StartPalAdmitsThirtyTwoEntries : Prop :=
  ∀ s : State, s.phase ≠ .busy → s.inPaletted = true → s.inN.toNat = 32 →
      exec .startPal s = .next { s with
        mode := 0b01#2, phase := .busy, errCode := 0, errExpected := 0, errActual := 0, emitted := 0, unitCtr := 0,
        out := [], hostFile := [] }

/-- START.SPR completes: on a paletted grid of exactly 64 whole sprites the run is BUSY. Rests on 43_sprite_mode.md
R112, R111; 44_sequencer.md R117.
When PHASE is not BUSY, IN_PALETTED = 1, IN_W and IN_H are multiples of 16 and (IN_W/16)*(IN_H/16) = 64, START.SPR
answers the state with MODE 0b10, PHASE BUSY, the error registers, EMITTED and UNIT 0 and an empty stream, and every
other field unchanged. -/
def Obligations.StartSprAdmitsValidGrid : Prop :=
  ∀ s : State, s.phase ≠ .busy → s.inPaletted = true → s.inW.toNat % 16 = 0 → s.inH.toNat % 16 = 0 →
      (s.inW.toNat / 16) * (s.inH.toNat / 16) = 64 →
      exec .startSpr s = .next { s with
        mode := 0b10#2, phase := .busy, errCode := 0, errExpected := 0, errActual := 0, emitted := 0, unitCtr := 0,
        out := [], hostFile := [] }

/-- START.PAL raises SIZE_MISMATCH(32, IN_N) exactly when the palette length is not 32. States R90.
For a paletted image while PHASE is not BUSY: when IN_N is not 32, START.PAL answers ERROR with ERR_CODE 2,
ERR_EXPECTED 32, ERR_ACTUAL = IN_N and no byte emitted; when IN_N is 32 it answers BUSY, so validation always
succeeds. -/
def Obligations.PaletteLengthDecidesStartPal : Prop :=
  ∀ s : State, s.phase ≠ .busy → s.inPaletted = true →
    (s.inN.toNat ≠ 32 →
      ∃ t, exec .startPal s = .next t ∧ t.mode = 0b01#2 ∧ t.phase = .error ∧ t.errCode = 2
        ∧ t.errExpected.toNat = 32 ∧ t.errActual.toNat = s.inN.toNat ∧ t.emitted = 0 ∧ t.unitCtr = 0 ∧ t.out = []
        ∧ SameHost s t) ∧
    (s.inN.toNat = 32 → ∃ t, exec .startPal s = .next t ∧ t.phase = .busy ∧ t.errCode = 0)

/-- START.TILE raises SIZE_MISMATCH(256, count) exactly when the grid is not 256 whole tiles. States R102.
For a paletted image while PHASE is not BUSY: when a dimension is not a multiple of 8 or (W div 8)*(H div 8) is not
256, START.TILE answers ERROR with ERR_CODE 2, ERR_EXPECTED 256, ERR_ACTUAL the floor-division count and no byte
emitted; otherwise it answers BUSY. 128x128, 256x64, 2048x8 and 8x2048 are the last case. -/
def Obligations.TileCountDecidesStartTile : Prop :=
  ∀ s : State, s.phase ≠ .busy → s.inPaletted = true →
    ((s.inW.toNat % 8 ≠ 0 ∨ s.inH.toNat % 8 ≠ 0 ∨ (s.inW.toNat / 8) * (s.inH.toNat / 8) ≠ 256) →
      ∃ t, exec .startTile s = .next t ∧ t.mode = 0b00#2 ∧ t.phase = .error ∧ t.errCode = 2
        ∧ t.errExpected.toNat = 256 ∧ t.errActual.toNat = (s.inW.toNat / 8) * (s.inH.toNat / 8) ∧ t.emitted = 0 ∧ t.unitCtr = 0 ∧ t.out = []
        ∧ SameHost s t) ∧
    (s.inW.toNat % 8 = 0 ∧ s.inH.toNat % 8 = 0 ∧ (s.inW.toNat / 8) * (s.inH.toNat / 8) = 256 →
      ∃ t, exec .startTile s = .next t ∧ t.phase = .busy ∧ t.errCode = 0) ∧
    ((s.inW = 128 ∧ s.inH = 128 ∨ s.inW = 256 ∧ s.inH = 64 ∨ s.inW = 2048 ∧ s.inH = 8 ∨ s.inW = 8 ∧ s.inH = 2048) →
      ∃ t, exec .startTile s = .next t ∧ t.phase = .busy)

/-- START.SPR raises SIZE_MISMATCH(64, count) exactly when the grid is not 64 whole sprites. States R111.
For a paletted image while PHASE is not BUSY: when a dimension is not a multiple of 16 or (W div 16)*(H div 16) is
not 64, START.SPR answers ERROR with ERR_CODE 2, ERR_EXPECTED 64, ERR_ACTUAL the floor-division count and no byte
emitted; otherwise it answers BUSY. 128x128, 256x64 and 1024x16 are the last case. -/
def Obligations.SpriteCountDecidesStartSpr : Prop :=
  ∀ s : State, s.phase ≠ .busy → s.inPaletted = true →
    ((s.inW.toNat % 16 ≠ 0 ∨ s.inH.toNat % 16 ≠ 0 ∨ (s.inW.toNat / 16) * (s.inH.toNat / 16) ≠ 64) →
      ∃ t, exec .startSpr s = .next t ∧ t.mode = 0b10#2 ∧ t.phase = .error ∧ t.errCode = 2
        ∧ t.errExpected.toNat = 64 ∧ t.errActual.toNat = (s.inW.toNat / 16) * (s.inH.toNat / 16) ∧ t.emitted = 0 ∧ t.unitCtr = 0 ∧ t.out = []
        ∧ SameHost s t) ∧
    (s.inW.toNat % 16 = 0 ∧ s.inH.toNat % 16 = 0 ∧ (s.inW.toNat / 16) * (s.inH.toNat / 16) = 64 →
      ∃ t, exec .startSpr s = .next t ∧ t.phase = .busy ∧ t.errCode = 0) ∧
    ((s.inW = 128 ∧ s.inH = 128 ∨ s.inW = 256 ∧ s.inH = 64 ∨ s.inW = 1024 ∧ s.inH = 16) →
      ∃ t, exec .startSpr s = .next t ∧ t.phase = .busy)

/-- IN_PALETTED = 0 raises NOT_PALETTED(0, 0) in every mode, before any size check. States R133.
For every command and every state with PHASE not BUSY and IN_PALETTED = 0, whatever the sizes, START answers ERROR
with its own mode word, ERR_CODE 1, ERR_EXPECTED 0, ERR_ACTUAL 0 and no byte emitted. -/
def Obligations.UnpalettedImageRaisesInEveryMode : Prop :=
  ∀ i (s : State), s.phase ≠ .busy → s.inPaletted = false →
    ∃ t, exec i s = .next t ∧ t.mode = encode i ∧ t.phase = .error ∧ t.errCode = 1 ∧ t.errExpected = 0
      ∧ t.errActual = 0 ∧ t.emitted = 0 ∧ t.unitCtr = 0 ∧ t.out = [] ∧ SameHost s t

/-- START with mode word 0b11 raises ILLEGAL_MODE(0, 0). States R137.
A CMD write whose bits 1 and 0 are both 1, made while PHASE is not BUSY, answers ERROR with MODE 0b11, ERR_CODE 4,
ERR_EXPECTED 0, ERR_ACTUAL 0 and no byte emitted, whatever the inputs. -/
def Obligations.BothFlagsRaiseIllegalMode : Prop :=
  ∀ (s : State) v rest, errReserved s.errCode = false → s.phase ≠ .busy → s.agenda = .write 6 v :: rest →
    modeWordOf v = 0b11#2 →
    ∃ t, step s = .next t ∧ t.mode = 0b11#2 ∧ t.phase = .error ∧ t.errCode = 4 ∧ t.errExpected = 0
      ∧ t.errActual = 0 ∧ t.emitted = 0 ∧ t.unitCtr = 0 ∧ t.out = [] ∧ SameInputs s t ∧ t.hostReads = s.hostReads
      ∧ t.agenda = rest

/-- START applies its checks in order and reports only the first that fails. States R138.
A CMD write of v while PHASE is not BUSY answers a state whose ERR_CODE is ILLEGAL_MODE if v's mode word is 0b11,
else NOT_PALETTED if IN_PALETTED = 0, else SIZE_MISMATCH if the selected mode's size check fails, else NONE; so
never IO_ERROR. IO_ERROR arises only in a core turn: a step whose ERR_CODE becomes IO_ERROR is a refused STEP. -/
def Obligations.StartReportsFirstFailingCheck : Prop :=
  (∀ (s : State) v rest, errReserved s.errCode = false → s.phase ≠ .busy → s.agenda = .write 6 v :: rest →
    ∃ t, step s = .next t ∧ t.errCode =
      (if modeWordOf v = 0b11#2 then 4
       else if s.inPaletted = false then 1
       else if modeWordOf v = 0b01#2 then (if s.inN.toNat ≠ 32 then 2 else 0)
       else if modeWordOf v = 0b00#2 then
         (if s.inW.toNat % 8 ≠ 0 ∨ s.inH.toNat % 8 ≠ 0 ∨ (s.inW.toNat / 8) * (s.inH.toNat / 8) ≠ 256 then 2 else 0)
       else
         (if s.inW.toNat % 16 ≠ 0 ∨ s.inH.toNat % 16 ≠ 0 ∨ (s.inW.toNat / 16) * (s.inH.toNat / 16) ≠ 64 then 2
          else 0))) ∧
  (∀ s t : State, step s = .next t → t.errCode = 3 → s.errCode ≠ 3 →
    ∃ e rest, s.agenda = .step (.refuse e) :: rest)

/-- What START.TILE, START.PAL and START.SPR leave unchanged. Rests on 44_sequencer.md R117; 20_memory.md R46, R51, R53;
60_exceptions.md R131.
Whenever one of the three commands answers a next state, MODE is its own word, EMITTED and UNIT are 0, the stream is
empty, the inputs, the host's reads and the moves to come are unchanged, and every pixel and every palette entry
reads as before: START stores to no input space and emits no byte. -/
def Obligations.StartFrame : Prop :=
  ∀ i (s t : State), exec i s = .next t →
    t.mode = encode i ∧ t.emitted = 0 ∧ t.unitCtr = 0 ∧ t.out = [] ∧ (t.phase = .busy ∨ t.phase = .error)
      ∧ SameHost s t ∧ SameSpaces s t

/-- No state of one run influences the next. Rests on 70_reset_and_hazards.md R156; 44_sequencer.md R117.
From two states with the same inputs, both not BUSY, a command leaves the same registers and the same empty stream,
whatever MODE, PHASE, error registers, counters and stream the earlier runs left. -/
def Obligations.EveryRunStartsAfresh : Prop :=
  ∀ i (s s' : State), s.phase ≠ .busy → s'.phase ≠ .busy → SameInputs s s' →
    ∃ t t', exec i s = .next t ∧ exec i s' = .next t' ∧ SameRegs t t' ∧ t.out = t'.out

/-- Palette mode neither reads nor checks the pixel grid, IN_W or IN_H. States R92.
Changing IN_W, IN_H and the whole grid changes neither what START.PAL leaves in the registers nor any palette unit. -/
def Obligations.PaletteModeIgnoresGrid : Prop :=
  ∀ (s : State) w h (p : List Host.Cell), s.phase ≠ .busy →
    (∃ t t', exec .startPal s = .next t ∧ exec .startPal { s with inW := w, inH := h, pix := p } = .next t'
      ∧ SameRegs t t') ∧
    (∀ u, unitOf 0b01#2 { s with inW := w, inH := h, pix := p } u = unitOf 0b01#2 s u)

/-- Tile mode neither reads nor checks the palette table or IN_N. States R105.
Changing IN_N and the whole palette changes neither what START.TILE leaves in the registers nor any tile unit. -/
def Obligations.TileModeIgnoresPalette : Prop :=
  ∀ (s : State) n (c : List (Nat × RGB)), s.phase ≠ .busy →
    (∃ t t', exec .startTile s = .next t ∧ exec .startTile { s with inN := n, palt := c } = .next t'
      ∧ SameRegs t t') ∧
    (∀ u, unitOf 0b00#2 { s with inN := n, palt := c } u = unitOf 0b00#2 s u)

/-- Sprite mode neither reads nor checks the palette table or IN_N. Rests on 43_sprite_mode.md R114.
Changing IN_N and the whole palette changes neither what START.SPR leaves in the registers nor any sprite unit. -/
def Obligations.SpriteModeIgnoresPalette : Prop :=
  ∀ (s : State) n (c : List (Nat × RGB)), s.phase ≠ .busy →
    (∃ t t', exec .startSpr s = .next t ∧ exec .startSpr { s with inN := n, palt := c } = .next t'
      ∧ SameRegs t t') ∧
    (∀ u, unitOf 0b10#2 { s with inN := n, palt := c } u = unitOf 0b10#2 s u)

/-- PixRead faults exactly outside the grid, and a validated run never reads there. Rests on 20_memory.md R48;
41_band_encoder.md R97.
PixRead(x, y) with x >= W, y >= H or a negative coordinate is the fault PIX_OUT_OF_RANGE and gives no value, and
inside the grid it gives a value; and under inputs that pass validation every unit below TOTAL(MODE) is computed
without that fault. -/
def Obligations.PixelReadsStayInTheGrid : Prop :=
  (∀ (s : State) (x y : Int), (x < 0 ∨ y < 0 ∨ s.inW.toNat ≤ x ∨ s.inH.toNat ≤ y) → pixRead s x y = .error .pixOutOfRange) ∧
  (∀ (s : State) (x y : Int), 0 ≤ x → 0 ≤ y → x < s.inW.toNat → y < s.inH.toNat → ∃ v, pixRead s x y = .ok v) ∧
  (∀ m (s : State) n u, validate m s = .ok () → totalUnits m = some n → u < n → ∃ l, unitOf m s u = .ok l)

/-- Bits [7:2] of a pixel index never change any output. Rests on 20_memory.md R47; 30_encoding.md R72.
Two grids whose indices agree in bits 1 and 0 everywhere give the same unit in every mode, at every position. -/
def Obligations.HighIndexBitsNeverReachTheOutput : Prop :=
  ∀ (s : State) (p : List Host.Cell),
    (∀ k, (Memory.get pixUnset p k).extractLsb' 0 2 = (Memory.get pixUnset s.pix k).extractLsb' 0 2) →
    ∀ m u, unitOf m { s with pix := p } u = unitOf m s u

/-- Red and green bits [4:0] and blue bits [5:0] never change the colour byte. Rests on 30_encoding.md R72, R74;
40_palette.md R88.
Two triples that agree in the kept bits of every channel encode to the same byte. -/
def Obligations.LowChannelBitsNeverReachTheOutput : Prop :=
  ∀ a b : RGB, a.r.extractLsb' 5 3 = b.r.extractLsb' 5 3 → a.g.extractLsb' 5 3 = b.g.extractLsb' 5 3 →
    a.b.extractLsb' 6 2 = b.b.extractLsb' 6 2 → encColor a = encColor b

/-- A pixel the host sets reads back, and every other pixel reads as before. Rests on 30_encoding.md R86; 20_memory.md
R45, R47; 70_reset_and_hazards.md R151.
While PHASE is not BUSY, a SET of PIX(x, y) to v gives a next state in which PixRead(x, y) is v if (x, y) is in the
grid, every other point reads as before, and nothing but the grid and the agenda has changed. -/
def Obligations.SetPixelReadsBack : Prop :=
  ∀ (s : State) x y v rest, s.memWf → errReserved s.errCode = false → s.phase ≠ .busy →
    s.agenda = .set (.pixAt x y v) :: rest →
    ∃ t, step s = .next t
      ∧ (x.toNat < s.inW.toNat → y.toNat < s.inH.toNat → pixRead t x.toNat y.toNat = .ok v)
      ∧ (∀ a b : Int, ¬ (a = x.toNat ∧ b = y.toNat) → pixRead t a b = pixRead s a b)
      ∧ (∀ i, palRead t i = palRead s i)
      ∧ t = { s with pix := t.pix, agenda := rest }

/-- A palette entry the host sets reads back, and every other entry reads as before. Rests on 30_encoding.md R86;
20_memory.md R49, R50; 70_reset_and_hazards.md R151.
While PHASE is not BUSY, a SET of PALT[i] to c gives a next state in which PalRead(i) is c if i < IN_N, every other
entry and every pixel reads as before, and nothing but the palette and the agenda has changed. -/
def Obligations.SetPaletteEntryReadsBack : Prop :=
  ∀ (s : State) i c rest, s.memWf → errReserved s.errCode = false → s.phase ≠ .busy →
    s.agenda = .set (.paltAt i c) :: rest →
    ∃ t, step s = .next t
      ∧ (i.toNat < s.inN.toNat → palRead t i.toNat = .ok c)
      ∧ (∀ j, j ≠ i.toNat → palRead t j = palRead s j)
      ∧ (∀ a b, pixRead t a b = pixRead s a b)
      ∧ t = { s with palt := t.palt, agenda := rest }

/-- IN_PALETTED, IN_W, IN_H and IN_N take every value the host sets while not BUSY. Rests on 10_state.md R30, R31, R32,
R33; 30_encoding.md R86.
While PHASE is not BUSY, a SET of IN_PALETTED, IN_W, IN_H or IN_N gives the state with that input at the value
written, the move taken and everything else unchanged. That the pixels are kept across a SET of IN_W or IN_H (log
13), and the palette entries across a SET of IN_N (log 22), is the model's choice (DESIGN CHOICE) and no rule of the
spec. -/
def Obligations.SetSizesTakeEffect : Prop :=
  ∀ (s : State) rest, errReserved s.errCode = false → s.phase ≠ .busy →
    (∀ v, s.agenda = .set (.paletted v) :: rest → step s = .next { s with inPaletted := v, agenda := rest }) ∧
    (∀ v, s.agenda = .set (.width v) :: rest → step s = .next { s with inW := v, agenda := rest }) ∧
    (∀ v, s.agenda = .set (.height v) :: rest → step s = .next { s with inH := v, agenda := rest }) ∧
    (∀ v, s.agenda = .set (.paletteLen v) :: rest → step s = .next { s with inN := v, agenda := rest })

/-- The whole grid and the whole palette take the values the host lists. Rests on 30_encoding.md R86; 20_memory.md R45,
R49.
While PHASE is not BUSY: a SET of PIX with no two values listed for one point leaves each listed in-range point
reading its value and every other in-range point reading 0; a SET of PALT leaves entry i reading the i-th listed
triple and every entry past the list reading (0, 0, 0), wherever i < IN_N. What an unlisted element reads as is the
model's choice (log 12, 17). -/
def Obligations.SetWholeSpacesTakeEffect : Prop :=
  ∀ (s : State) rest, errReserved s.errCode = false → s.phase ≠ .busy →
    (∀ ps : List (BitVec 16 × BitVec 16 × Byte),
      (ps.map (fun p => (p.1, p.2.1))).Nodup → s.agenda = .set (.pixAll ps) :: rest →
      ∃ t, step s = .next t ∧ t = { s with pix := t.pix, agenda := rest }
        ∧ (∀ x y v, (x, y, v) ∈ ps → x.toNat < s.inW.toNat → y.toNat < s.inH.toNat →
            pixRead t x.toNat y.toNat = .ok v)
        ∧ (∀ x y : BitVec 16, (∀ v, (x, y, v) ∉ ps) → x.toNat < s.inW.toNat → y.toNat < s.inH.toNat →
            pixRead t x.toNat y.toNat = .ok 0)) ∧
    (∀ cs : List RGB, s.agenda = .set (.paltAll cs) :: rest →
      ∃ t, step s = .next t ∧ t = { s with palt := t.palt, agenda := rest }
        ∧ (∀ i, i < s.inN.toNat → palRead t i = .ok (cs.getD i ⟨0, 0, 0⟩)))

/-- The colour byte's fields are the top bits of blue, green and red. States R88.
For every triple, ENC_COLOR bits [7:6] are B[7:6], bits [5:3] are G[7:5], bits [2:0] are R[7:5], and the masked
triple (R & 0xE0, G & 0xE0, B & 0xC0) encodes to the same byte. -/
def Obligations.ColourByteFields : Prop :=
  ∀ r g b : Byte,
    (encColor ⟨r, g, b⟩).extractLsb' 6 2 = b.extractLsb' 6 2
    ∧ (encColor ⟨r, g, b⟩).extractLsb' 3 3 = g.extractLsb' 5 3
    ∧ (encColor ⟨r, g, b⟩).extractLsb' 0 3 = r.extractLsb' 5 3
    ∧ encColor ⟨r &&& 0xE0, g &&& 0xE0, b &&& 0xC0⟩ = encColor ⟨r, g, b⟩

/-- Bit r of band byte c is plane 0, and bit 4 + r plane 1, of the pixel at (x - c, y - r). States R75, R76.
For every reference point with 7 <= x < W and 3 <= y < H, ENC_8X4 answers 8 bytes, byte 0 for column x and byte 7
for column x - 7; for c < 8 and r < 4, bit r of byte c is bit 0, and bit 4 + r is bit 1, of P(x - c, y - r). -/
def Obligations.BandByteBits : Prop :=
  ∀ (s : State) (x y : Nat), 7 ≤ x → x < s.inW.toNat → 3 ≤ y → y < s.inH.toNat →
    ∃ l, enc8x4 s x y = .ok l ∧ l.length = 8 ∧
      ∀ c r : Nat, c < 8 → r < 4 → ∃ p, samplePixel s ((x : Int) - c) ((y : Int) - r) = .ok p
        ∧ (l.getD c 0).getLsbD r = p.getLsbD 0 ∧ (l.getD c 0).getLsbD (4 + r) = p.getLsbD 1

/-- A region of one constant index gives eight equal bytes. States R94.
For every valid reference point ENC_8X4 answers exactly 8 bytes; where every sampled P is 0, 1, 2 or 3 they are all
0x00, 0x0F, 0xF0 or 0xFF. -/
def Obligations.BandOfConstantRegion : Prop :=
  ∀ (s : State) (x y : Nat), 7 ≤ x → x < s.inW.toNat → 3 ≤ y → y < s.inH.toNat →
    (∃ l, enc8x4 s x y = .ok l ∧ l.length = 8) ∧
    ∀ p : BitVec 2,
      (∀ c r : Nat, c < 8 → r < 4 → samplePixel s ((x : Int) - c) ((y : Int) - r) = .ok p) →
      enc8x4 s x y = .ok (List.replicate 8
        (if p = 0 then 0x00 else if p = 1 then 0x0F else if p = 2 then 0xF0 else 0xFF))

/-- ENC_8X4's reads are all in range exactly when 7 <= x < W and 3 <= y < H. States R96.
ENC_8X4(x, y) answers bytes exactly at reference points with 7 <= x < W and 3 <= y < H, which is exactly when every
point (x - c, y - r), c < 8, r < 4, can be read; at every other reference point it is the fault PIX_OUT_OF_RANGE. -/
def Obligations.BandReadsInRangeExactly : Prop :=
  ∀ (s : State) (x y : Nat),
    ((7 ≤ x ∧ x < s.inW.toNat ∧ 3 ≤ y ∧ y < s.inH.toNat) ↔
      ∀ c r : Nat, c < 8 → r < 4 → ∃ v, pixRead s ((x : Int) - c) ((y : Int) - r) = .ok v) ∧
    ((7 ≤ x ∧ x < s.inW.toNat ∧ 3 ≤ y ∧ y < s.inH.toNat) ↔ ∃ l, enc8x4 s x y = .ok l) ∧
    (¬ (7 ≤ x ∧ x < s.inW.toNat ∧ 3 ≤ y ∧ y < s.inH.toNat) → enc8x4 s x y = .error .pixOutOfRange)

/-- The tile image is ENC_TILE over all tiles in raster order. Rests on 42_tile_mode.md R99, R100, R101.
Under inputs that pass the tile check, the concatenation of tile units 0 to 511 is the concatenation of ENC_TILE(cx,
cy) for cy from 0 to H div 8 - 1 and, within each row, cx from 0 to W div 8 - 1. -/
def Obligations.TileImageIsRasterOfTiles : Prop :=
  ∀ s : State, validate 0b00#2 s = .ok () →
    ∃ tiles, ((List.range (s.inH.toNat / 8)).flatMap
        (fun cy => (List.range (s.inW.toNat / 8)).map (fun cx => (cx, cy)))).mapM
          (fun q => encTile s q.1 q.2) = .ok tiles
      ∧ tiles.length = 256 ∧ image 0b00#2 s = .ok tiles.flatten

/-- The sprite image is ENC_SPRITE over all sprites in raster order. Rests on 43_sprite_mode.md R107, R109, R110.
Under inputs that pass the sprite check, the concatenation of sprite units 0 to 511 is the concatenation of
ENC_SPRITE(sx, sy) for sy from 0 to H div 16 - 1 and, within each row, sx from 0 to W div 16 - 1. -/
def Obligations.SpriteImageIsRasterOfSprites : Prop :=
  ∀ s : State, validate 0b10#2 s = .ok () →
    ∃ sprites, ((List.range (s.inH.toNat / 16)).flatMap
        (fun sy => (List.range (s.inW.toNat / 16)).map (fun sx => (sx, sy)))).mapM
          (fun q => encSprite s q.1 q.2) = .ok sprites
      ∧ sprites.length = 64 ∧ image 0b10#2 s = .ok sprites.flatten

/-- In a tile image every pixel lands in exactly one byte, at exactly two bits. States R83.
Under inputs that pass the tile check, the image has 4096 bytes; the pixel at (x, y) gives bit r (plane 0) and bit 4
+ r (plane 1) of byte j = 16*(cy*(W div 8)+cx) + 8*b + c with cx = x div 8, cy = y div 8, b = 0 when y mod 8 >= 4
and 1 otherwise, c = 7 - x mod 8, r = 3 - (y mod 8) mod 4; and the map is a bijection between the W*H = 16384 pixels
and the pairs j < 4096, r < 4. -/
def Obligations.TilePixelToByteMap : Prop :=
  ∀ s : State, validate 0b00#2 s = .ok () →
    let w := s.inW.toNat
    let h := s.inH.toNat
    let pos := fun x y : Nat =>
      16 * ((y / 8) * (w / 8) + x / 8) + 8 * (if 4 ≤ y % 8 then 0 else 1) + (7 - x % 8)
    let row := fun y : Nat => 3 - (y % 8) % 4
    w * h = 16384 ∧
    (∃ img, image 0b00#2 s = .ok img ∧ img.length = 4096 ∧
      ∀ x y : Nat, x < w → y < h → ∃ p, samplePixel s x y = .ok p
        ∧ (img.getD (pos x y) 0).getLsbD (row y) = p.getLsbD 0
        ∧ (img.getD (pos x y) 0).getLsbD (4 + row y) = p.getLsbD 1) ∧
    (∀ x y, x < w → y < h → pos x y < 4096 ∧ row y < 4) ∧
    (∀ j r, j < 4096 → r < 4 → ∃ x y, x < w ∧ y < h ∧ pos x y = j ∧ row y = r) ∧
    (∀ x y x' y', x < w → y < h → x' < w → y' < h → pos x y = pos x' y' → row y = row y' → x = x' ∧ y = y')

/-- In a sprite image the pixel at (x, y) lands where R84 says. States R84.
Under inputs that pass the sprite check, the image has 4096 bytes and the pixel at (x, y) gives bit r (plane 0) and
bit 4 + r (plane 1) of byte j = 64*(sy*(W div 16)+sx) + 8*k + c with sx = x div 16, sy = y div 16, k = (0 if x mod
16 >= 8 else 4) + ((y mod 16) div 4 + 1) mod 4, c = 7 - x mod 8, r = 3 - (y mod 16) mod 4. -/
def Obligations.SpritePixelToByteMap : Prop :=
  ∀ s : State, validate 0b10#2 s = .ok () →
    ∃ img, image 0b10#2 s = .ok img ∧ img.length = 4096 ∧
      ∀ x y : Nat, x < s.inW.toNat → y < s.inH.toNat →
        let k := (if 8 ≤ x % 16 then 0 else 4) + ((y % 16) / 4 + 1) % 4
        let j := 64 * ((y / 16) * (s.inW.toNat / 16) + x / 16) + 8 * k + (7 - x % 8)
        let r := 3 - (y % 16) % 4
        ∃ p, samplePixel s x y = .ok p
          ∧ (img.getD j 0).getLsbD r = p.getLsbD 0 ∧ (img.getD j 0).getLsbD (4 + r) = p.getLsbD 1

/-- Every byte of a complete image stands at the position R54 gives it. States R54.
Under inputs that pass validation: the palette image has 32 bytes and byte j is the colour byte of entry j; the tile
image has 4096 bytes and byte 16t + 8b + c is byte c of band b (0 lower, 1 upper) of tile t; the sprite image has
4096 bytes and byte 64s + 8k + c is byte c of sub-block k of sprite s, tiles and sprites counted in raster order;
and a run that reaches DONE from a state with CoreInv has exactly its mode's image as the stream. -/
def Obligations.OutputPositions : Prop :=
  (∀ s : State, validate 0b01#2 s = .ok () → ∃ img, image 0b01#2 s = .ok img ∧ img.length = 32 ∧
    ∀ j, j < 32 → ∃ c, palRead s j = .ok c ∧ img.getD j 0 = encColor c) ∧
  (∀ s : State, validate 0b00#2 s = .ok () → ∃ img, image 0b00#2 s = .ok img ∧ img.length = 4096 ∧
    ∀ t b c, t < 256 → b < 2 → c < 8 →
      ∃ l, enc8x4 s (8 * (t % (s.inW.toNat / 8)) + 7)
          (8 * (t / (s.inW.toNat / 8)) + (if b = 0 then 7 else 3)) = .ok l
        ∧ img.getD (16 * t + 8 * b + c) 0 = l.getD c 0) ∧
  (∀ s : State, validate 0b10#2 s = .ok () → ∃ img, image 0b10#2 s = .ok img ∧ img.length = 4096 ∧
    ∀ n k c, n < 64 → k < 8 → c < 8 →
      ∃ l, enc8x4 s
          (16 * (n % (s.inW.toNat / 16)) + ([15, 15, 15, 15, 7, 7, 7, 7].getD k 0))
          (16 * (n / (s.inW.toNat / 16)) + ([15, 3, 7, 11, 15, 3, 7, 11].getD k 0)) = .ok l
        ∧ img.getD (64 * n + 8 * k + c) 0 = l.getD c 0) ∧
  (∀ s t : State, CoreInv s → s.phase = .busy → step s = .next t → t.phase = .done →
    image t.mode t = .ok t.out ∧ t.out.length = t.emitted.toNat)

/-- A unit is computed from the mode, UNIT and the host inputs alone. Rests on 10_state.md R36; 44_sequencer.md R119;
43_sprite_mode.md R109.
Two states with the same inputs give the same unit in every mode at every position, whatever their registers,
streams and earlier units. -/
def Obligations.UnitsDependOnInputsAlone : Prop :=
  ∀ s t : State, SameInputs s t → ∀ m u, unitOf m s u = unitOf m t u

/-- An accepted STEP appends its unit, advances EMITTED and UNIT, and ends the run at TOTAL. Rests on 44_sequencer.md
R119, R120; 10_state.md R27, R34, R35.
From a BUSY state with CoreInv, a core turn that the sink accepts computes a unit and answers a state with that unit
appended to the stream, EMITTED higher by its length, UNIT higher by 1, and PHASE DONE if the new UNIT is
TOTAL(MODE) and BUSY otherwise; MODE, the error registers, the inputs, the pixels, the palette, the host's reads and
the other moves are unchanged. -/
def Obligations.AcceptedStepEffect : Prop :=
  ∀ (s : State) rest, CoreInv s → s.phase = .busy → s.agenda = .step .accept :: rest →
    ∃ l t, unitOf s.mode s s.unitCtr.toNat = .ok l ∧ l.length = bytesPerUnit s.mode ∧ step s = .next t
      ∧ t.out = s.out ++ l ∧ t.emitted.toNat = s.emitted.toNat + l.length
      ∧ t.unitCtr.toNat = s.unitCtr.toNat + 1
      ∧ t.phase = (if totalUnits s.mode = some (s.unitCtr.toNat + 1) then .done else .busy)
      ∧ t.mode = s.mode ∧ t.errCode = s.errCode ∧ t.errExpected = s.errExpected ∧ t.errActual = s.errActual
      ∧ SameInputs s t ∧ SameSpaces s t ∧ t.hostReads = s.hostReads ∧ t.agenda = rest

/-- A refused STEP raises IO_ERROR(0, e) and leaves UNIT and EMITTED as they were. States R121.
From a BUSY state with CoreInv, a core turn that the sink refuses with e answers ERROR with ERR_CODE 3, ERR_EXPECTED
0 and ERR_ACTUAL = e; MODE, UNIT, EMITTED, the accepted stream, the inputs and the host's reads are unchanged; and
from there a further core turn only takes its move. -/
def Obligations.RefusedStepAborts : Prop :=
  ∀ (s : State) e rest, CoreInv s → s.phase = .busy → s.agenda = .step (.refuse e) :: rest →
    ∃ t, step s = .next t ∧ t.phase = .error ∧ t.errCode = 3 ∧ t.errExpected = 0 ∧ t.errActual = e
      ∧ t.mode = s.mode ∧ t.unitCtr = s.unitCtr ∧ t.emitted = s.emitted ∧ t.out = s.out
      ∧ SameInputs s t ∧ SameSpaces s t ∧ t.hostReads = s.hostReads ∧ t.agenda = rest
      ∧ ∀ a rest', step { t with agenda := .step a :: rest' } = .next { t with agenda := rest' }

/-- The step that ends a run in DONE leaves the mode's complete image in the stream. Rests on 44_sequencer.md R120;
10_state.md R27, R35, R43.
From a BUSY state with CoreInv, a step to DONE is an accepted core turn after which UNIT = TOTAL(MODE), EMITTED is
32 in palette mode and 4096 otherwise, ERR_CODE is NONE, and the stream, and the host's file with it, is the mode's
complete image, of length EMITTED; and from there a further core turn only takes its move. -/
def Obligations.CompletedRunHoldsTheImage : Prop :=
  ∀ s t : State, CoreInv s → s.phase = .busy → step s = .next t → t.phase = .done →
    (∃ rest, s.agenda = .step .accept :: rest)
    ∧ totalUnits t.mode = some t.unitCtr.toNat
    ∧ t.emitted.toNat = (if t.mode = 0b01#2 then 32 else 4096) ∧ t.errCode = 0
    ∧ image t.mode t = .ok t.out ∧ t.out.length = t.emitted.toNat ∧ t.hostFile = t.out
    ∧ ∀ a rest', step { t with agenda := .step a :: rest' } = .next { t with agenda := rest' }

/-- While BUSY the stream is the first EMITTED bytes of the image. Rests on 70_reset_and_hazards.md R152, R155;
20_memory.md R62.
In every BUSY state with CoreInv, the inputs have a complete image and the stream is its first EMITTED bytes, fewer
than all of it. -/
def Obligations.BusyStreamIsPrefixOfImage : Prop :=
  ∀ s : State, CoreInv s → s.phase = .busy →
    ∃ img, image s.mode s = .ok img ∧ s.out = img.take s.emitted.toNat ∧ s.emitted.toNat < img.length

/-- In IDLE, DONE and ERROR the core changes no state until the host acts. States R122.
When PHASE is IDLE, DONE or ERROR (and ERR_CODE is not reserved), a core turn changes nothing but the agenda, and
with no move to come a step changes nothing at all; while BUSY an accepted turn of a state with CoreInv does change
UNIT, so these phases are the only quiescent ones. -/
def Obligations.QuiescentCoreChangesNothing : Prop :=
  (∀ s : State, s.phase = .idle ∨ s.phase = .done ∨ s.phase = .error → errReserved s.errCode = false →
    (∀ a rest, s.agenda = .step a :: rest → step s = .next { s with agenda := rest }) ∧
    (s.agenda = [] → step s = .next s)) ∧
  (∀ (s : State) rest, CoreInv s → s.phase = .busy → s.agenda = .step .accept :: rest →
    ∃ t, step s = .next t ∧ t.unitCtr ≠ s.unitCtr)

/-- The only phase transitions are those R23 lists. States R23.
From every state with CoreInv, a step to a next state either leaves PHASE as it was (and, while BUSY, then makes no
START), or is one of: a START from IDLE, DONE or ERROR, to BUSY when validation passes and to ERROR when it fails; a
core turn from BUSY to DONE that emits the last unit; a refused core turn from BUSY to ERROR; a reset to IDLE. So
DONE and ERROR are held until a START or a reset, and only a core turn or a reset leaves BUSY. A core turn that
emits a unit which is not the last goes from BUSY to BUSY. -/
def Obligations.PhaseTransitions : Prop :=
  (∀ s t : State, CoreInv s → step s = .next t →
    (t.phase = s.phase) ∨
    (∃ v rest, s.agenda = .write 6 v :: rest ∧ s.phase ≠ .busy ∧
      ((validate (modeWordOf v) s = .ok () ∧ t.phase = .busy) ∨
       ((∃ e, validate (modeWordOf v) s = .error e) ∧ t.phase = .error))) ∨
    (∃ rest, s.agenda = .step .accept :: rest ∧ s.phase = .busy ∧ t.phase = .done
      ∧ totalUnits s.mode = some (s.unitCtr.toNat + 1)) ∨
    (∃ e rest, s.agenda = .step (.refuse e) :: rest ∧ s.phase = .busy ∧ t.phase = .error) ∨
    (∃ rest, s.agenda = .reset :: rest ∧ t.phase = .idle)) ∧
  (∀ (s t : State) v rest, CoreInv s → s.agenda = .write 6 v :: rest → step s = .next t →
    s.phase ≠ .busy ∧ (t.phase = .busy ↔ validate (modeWordOf v) s = .ok ())
      ∧ (t.phase = .error ↔ ∃ e, validate (modeWordOf v) s = .error e)) ∧
  (∀ (s : State) rest, CoreInv s → s.phase = .busy → s.agenda = .step .accept :: rest →
    totalUnits s.mode ≠ some (s.unitCtr.toNat + 1) → ∃ t, step s = .next t ∧ t.phase = .busy)

/-- MODE changes only by a START, which latches its mode word, or a reset. Rests on 10_state.md R21;
70_reset_and_hazards.md R147.
Whenever a step changes MODE, its move was a CMD write, whose mode word MODE then holds, or a reset, after which
MODE is 0b00; and a CMD write that gives a next state always latches its mode word. -/
def Obligations.OnlyStartAndResetWriteMode : Prop :=
  (∀ s t : State, step s = .next t → t.mode ≠ s.mode →
    (∃ v rest, s.agenda = .write 6 v :: rest ∧ t.mode = modeWordOf v) ∨
    (∃ rest, s.agenda = .reset :: rest ∧ t.mode = 0b00#2)) ∧
  (∀ (s t : State) v rest, s.agenda = .write 6 v :: rest → step s = .next t → t.mode = modeWordOf v)

/-- No step changes an input but the host's SET, and none does while BUSY. Rests on 20_memory.md R46, R51;
70_reset_and_hazards.md R151; 10_state.md R19.
Whenever a step leaves an input, a pixel or a palette entry different, its move was a host SET and PHASE was not
BUSY: the core never writes the grid or the palette, and during a run they do not change. -/
def Obligations.InputsStableDuringARun : Prop :=
  ∀ s t : State, step s = .next t → ¬ (SameInputs s t ∧ SameSpaces s t) →
    s.phase ≠ .busy ∧ ∃ w rest, s.agenda = .set w :: rest

/-- The stream only grows, and only by the unit of an accepted STEP, until a START gives an empty one. Rests on
20_memory.md R52, R53; 44_sequencer.md R117.
A step that is no CMD write leaves the stream as it was, or is an accepted core turn from BUSY that appends exactly
the unit of the current UNIT. A CMD write that gives a next state leaves the stream empty. -/
def Obligations.StreamIsAppendOnly : Prop :=
  (∀ s t : State, step s = .next t → (∀ v rest, s.agenda ≠ .write 6 v :: rest) →
    t.out = s.out ∨
    ∃ l rest, s.agenda = .step .accept :: rest ∧ s.phase = .busy
      ∧ unitOf s.mode s s.unitCtr.toNat = .ok l ∧ t.out = s.out ++ l) ∧
  (∀ (s t : State) v rest, s.agenda = .write 6 v :: rest → step s = .next t → t.out = [])

/-- DONE and ERROR keep every register and the stream until a START or a reset. Rests on 60_exceptions.md R131, R136,
R139; 10_state.md R22.
In DONE or ERROR, a step whose move is no CMD write and no reset leaves every register and the stream unchanged:
nothing is retried and nothing is emitted. -/
def Obligations.ErrorAndDoneAreHeld : Prop :=
  ∀ s t : State, s.phase = .done ∨ s.phase = .error → step s = .next t →
    (∀ v rest, s.agenda ≠ .write 6 v :: rest) → (∀ rest, s.agenda ≠ .reset :: rest) →
    SameRegs s t ∧ t.out = s.out

/-- RESET sets every core register to its reset value in every phase, and keeps what is the host's. Rests on
70_reset_and_hazards.md R146, R147, R148; 10_state.md R42; 93_implementation_defined.md U13.
In every state, whatever its phase and ERR_CODE, a reset answers a state with the registers of State.reset; the
inputs, every pixel and palette entry, the bytes already in the sink, the host's reads and the other moves are
unchanged. The host's file is as it was, or, where the reset cut a run off, the accepted bytes with any bytes after
them (log 10). -/
def Obligations.ResetEffect : Prop :=
  ∀ (s : State) rest, s.agenda = .reset :: rest →
    ∃ t, step s = .next t ∧ SameRegs t State.reset ∧ SameInputs s t ∧ SameSpaces s t ∧ t.out = s.out
      ∧ (s.phase ≠ .busy → t.hostFile = s.hostFile) ∧ (s.phase = .busy → s.out <+: t.hostFile)
      ∧ t.hostReads = s.hostReads ∧ t.agenda = rest

/-- RD returns the register's value zero-extended, and has no side effect. Rests on 44_sequencer.md R123; 10_state.md
R20, R22, R28.
In every phase (ERR_CODE not reserved) a read of register n answers the same state with the move taken and one value
more in the host's record (log 15): MODE, PHASE as 0..3, ERR_CODE, ERR_EXPECTED, ERR_ACTUAL or EMITTED for n = 0 to
5, and 0 for CMD and for every number above it. -/
def Obligations.RegisterReadReturnsItsValue : Prop :=
  ∀ (s : State) n rest, errReserved s.errCode = false → s.agenda = .read n :: rest →
    ∃ v : Word, step s = .next { s with hostReads := s.hostReads ++ [v], agenda := rest }
      ∧ (n = 0 → v.toNat = s.mode.toNat)
      ∧ (n = 1 → v.toNat = (match s.phase with | .idle => 0 | .busy => 1 | .done => 2 | .error => 3))
      ∧ (n = 2 → v.toNat = s.errCode.toNat) ∧ (n = 3 → v.toNat = s.errExpected.toNat)
      ∧ (n = 4 → v.toNat = s.errActual.toNat) ∧ (n = 5 → v.toNat = s.emitted.toNat)
      ∧ (6 ≤ n → v.toNat = 0)

/-- A host write to any register but CMD is ignored. Rests on 10_state.md R20, R29; 93_implementation_defined.md U14.
In every phase (ERR_CODE not reserved) a host write to a register number other than 6 changes nothing but the
agenda. -/
def Obligations.ReadOnlyRegistersIgnoreWrites : Prop :=
  ∀ (s : State) n v rest, errReserved s.errCode = false → n ≠ 6 → s.agenda = .write n v :: rest →
    step s = .next { s with agenda := rest }

/-- A BUSY run ends in DONE or ERROR within TOTAL(MODE) - UNIT core turns. Rests on 44_sequencer.md R124;
70_reset_and_hazards.md R158.
From a BUSY state with CoreInv whose next TOTAL(MODE) - UNIT moves are core turns, whatever the sink answers, that
many steps reach a state whose PHASE is DONE or ERROR. That the sink answers at all is the host's duty (R158). -/
def Obligations.RunEndsWithinTotalTurns : Prop :=
  ∀ (s : State) n (answers : List SinkAnswer) rest, CoreInv s → s.phase = .busy → totalUnits s.mode = some n →
    answers.length = n - s.unitCtr.toNat → s.agenda = answers.map Move.step ++ rest →
    ∃ t : State, Host.Core.run Sys2Proof.core answers.length s = .next t
      ∧ (t.phase = .done ∨ t.phase = .error) ∧ t.agenda = rest

/-- A whole run ends in the state the run function gives. States R125.
From any state not BUSY (ERR_CODE not reserved), a CMD write of v followed by one core turn per unit: if validate
fails with a report, the run ends in ERROR with that report, EMITTED 0 and nothing emitted; otherwise, if the
answers refuse first at unit u with word e, in ERROR with IO_ERROR, 0, e, UNIT u, EMITTED u times the bytes per
unit, and the stream holds units 0 to u - 1; otherwise in DONE with ERR_CODE NONE and the stream is image(m). -/
def Obligations.RunFunctionAgreesWithSteps : Prop :=
  ∀ (s : State) v (answers : List SinkAnswer), errReserved s.errCode = false → s.phase ≠ .busy →
    s.agenda = .write 6 v :: answers.map Move.step → answers.length = (totalUnits (modeWordOf v)).getD 0 →
    ∃ t : State, Host.Core.run Sys2Proof.core (answers.length + 1) s = .next t ∧ t.agenda = []
      ∧ t.mode = modeWordOf v
      ∧ (∀ e, validate (modeWordOf v) s = .error e →
          t.phase = .error ∧ t.errCode = e.code ∧ t.errExpected = e.expected ∧ t.errActual = e.actual
          ∧ t.emitted = 0 ∧ t.out = [])
      ∧ (validate (modeWordOf v) s = .ok () → ∀ u e, firstRefusal answers = some (u, e) →
          t.phase = .error ∧ t.errCode = errIo ∧ t.errExpected = 0 ∧ t.errActual = e ∧ t.unitCtr.toNat = u
          ∧ t.emitted.toNat = u * bytesPerUnit (modeWordOf v) ∧ streamOf (modeWordOf v) s u = .ok t.out)
      ∧ (validate (modeWordOf v) s = .ok () → firstRefusal answers = none →
          t.phase = .done ∧ t.errCode = errNone ∧ image (modeWordOf v) s = .ok t.out)

/-- Every grid that passes the sprite check passes the tile check. Rests on 43_sprite_mode.md R112.
Inputs that pass validation in sprite mode pass it in tile mode; and both bound the grid: W and H are at most 2048
in a valid tile run and at most 1024 in a valid sprite run (10_state.md R32). -/
def Obligations.SpriteValidGridIsTileValid : Prop :=
  (∀ s : State, validate 0b10#2 s = .ok () → validate 0b00#2 s = .ok ()) ∧
  (∀ s : State, validate 0b00#2 s = .ok () → s.inW.toNat ≤ 2048 ∧ s.inH.toNat ≤ 2048) ∧
  (∀ s : State, validate 0b10#2 s = .ok () → s.inW.toNat ≤ 1024 ∧ s.inH.toNat ≤ 1024)
end

