-- ==== Sys2Proof/Laws/Band.lean ====
section
/-! SUPPORT. Laws/Band.lean: everything the band encoder can answer (41_band_encoder.md R93 to R97), and that it depends
on the grid's size and pixels alone. -/

namespace Sys2Proof.Machine

/-- The two bits of the pixel at an in-range point. -/
def pixelBits (s : State) (x y : Nat) : BitVec 2 := (Memory.get pixUnset s.pix (pixKey x y)).extractLsb' 0 2

/-- The byte of one column, from the four pixels it packs (41_band_encoder.md R95). -/
def lane (p : Nat → BitVec 2) : Byte := putPixel (putPixel (putPixel (putPixel 0 0 (p 0)) 1 (p 1)) 2 (p 2)) 3 (p 3)

/-- A point inside the grid samples as its pixel's two bits. -/
theorem samplePixel_ok (s : State) (x y : Nat) (hx : x < s.inW.toNat) (hy : y < s.inH.toNat) :
    samplePixel s x y = .ok (pixelBits s x y) := by
  unfold samplePixel pixRead
  rw [if_pos ⟨by omega, by omega, by omega, by omega⟩]
  rfl

/-- A point outside the grid, negative coordinates included, faults and gives no value (20_memory.md R48). -/
theorem samplePixel_error (s : State) (x y : Int)
    (h : ¬ (0 ≤ x ∧ x < s.inW.toNat ∧ 0 ≤ y ∧ y < s.inH.toNat)) :
    samplePixel s x y = .error .pixOutOfRange := by
  unfold samplePixel pixRead
  rw [if_neg h]
  rfl

/-- A sample is the point's two bits or PIX_OUT_OF_RANGE. -/
theorem samplePixel_cases (s : State) (x y : Int) :
    (∃ b, samplePixel s x y = .ok b) ∨ samplePixel s x y = .error .pixOutOfRange := by
  unfold samplePixel pixRead
  split
  · exact .inl ⟨_, rfl⟩
  · exact .inr rfl

/-- A column of a valid reference point is its lane. -/
theorem encColumn_ok (s : State) (x y c : Nat) (hc : c ≤ x) (hx : x < s.inW.toNat) (hy3 : 3 ≤ y)
    (hy : y < s.inH.toNat) :
    encColumn s x y c = .ok (lane fun r => pixelBits s (x - c) (y - r)) := by
  have sample (r : Nat) (hr : r ≤ 3) :
      samplePixel s ((x : Int) - c) ((y : Int) - r) = .ok (pixelBits s (x - c) (y - r)) := by
    have hcx : (x : Int) - c = ((x - c : Nat) : Int) := by omega
    have hry : (y : Int) - r = ((y - r : Nat) : Int) := by omega
    rw [hcx, hry]
    exact samplePixel_ok s _ _ (by omega) (by omega)
  simp only [encColumn, List.foldlM_cons, List.foldlM_nil, sample 0 (by omega), sample 1 (by omega),
    sample 2 (by omega), sample 3 (by omega)]
  rfl

/-- The band of a valid reference point: its eight lanes, the rightmost column first (41_band_encoder.md R95). -/
theorem enc8x4_ok (s : State) (x y : Nat) (hx7 : 7 ≤ x) (hx : x < s.inW.toNat) (hy3 : 3 ≤ y)
    (hy : y < s.inH.toNat) :
    enc8x4 s x y = .ok ((List.range 8).map fun c => lane fun r => pixelBits s (x - c) (y - r)) := by
  have col (c : Nat) (hc : c ≤ 7) := encColumn_ok s x y c (by omega) hx hy3 hy
  simp only [enc8x4, List.mapM_cons, List.mapM_nil, col 0 (by omega), col 1 (by omega), col 2 (by omega),
    col 3 (by omega), col 4 (by omega), col 5 (by omega), col 6 (by omega), col 7 (by omega)]
  rfl

/-- A column answers a byte exactly when its four points are in the grid; otherwise PIX_OUT_OF_RANGE. -/
theorem encColumn_cases (s : State) (x y c : Nat) :
    (c ≤ x ∧ x < s.inW.toNat + c ∧ 3 ≤ y ∧ y < s.inH.toNat ∧ ∃ b, encColumn s x y c = .ok b)
      ∨ encColumn s x y c = .error .pixOutOfRange := by
  by_cases h : c ≤ x ∧ x < s.inW.toNat + c ∧ 3 ≤ y ∧ y < s.inH.toNat
  · obtain ⟨h1, h2, h3, h4⟩ := h
    refine .inl ⟨h1, h2, h3, h4, ?_⟩
    have sample (r : Nat) (hr : r ≤ 3) :
        samplePixel s ((x : Int) - c) ((y : Int) - r) = .ok (pixelBits s (x - c) (y - r)) := by
      have hcx : (x : Int) - c = ((x - c : Nat) : Int) := by omega
      have hry : (y : Int) - r = ((y - r : Nat) : Int) := by omega
      rw [hcx, hry]
      exact samplePixel_ok s _ _ (by omega) (by omega)
    simp only [encColumn, List.foldlM_cons, List.foldlM_nil, sample 0 (by omega), sample 1 (by omega),
      sample 2 (by omega), sample 3 (by omega)]
    exact ⟨_, rfl⟩
  · refine .inr ?_
    have bad : samplePixel s ((x : Int) - c) ((y : Int) - (0 : Nat)) = .error .pixOutOfRange
        ∨ samplePixel s ((x : Int) - c) ((y : Int) - (3 : Nat)) = .error .pixOutOfRange := by
      by_cases h0 : 0 ≤ (x : Int) - c ∧ (x : Int) - c < s.inW.toNat ∧ 0 ≤ (y : Int) - (0 : Nat)
          ∧ (y : Int) - (0 : Nat) < s.inH.toNat
      · exact .inr (samplePixel_error s _ _ (by omega))
      · exact .inl (samplePixel_error s _ _ h0)
    simp only [encColumn, List.foldlM_cons, List.foldlM_nil]
    rcases samplePixel_cases s ((x : Int) - c) ((y : Int) - (0 : Nat)) with ⟨b0, h0⟩ | h0
    · rcases samplePixel_cases s ((x : Int) - c) ((y : Int) - (1 : Nat)) with ⟨b1, h1⟩ | h1
      · rcases samplePixel_cases s ((x : Int) - c) ((y : Int) - (2 : Nat)) with ⟨b2, h2⟩ | h2
        · rcases bad with hb | hb
          · rw [h0] at hb; cases hb
          · simp only [h0, h1, h2, hb]; rfl
        · simp only [h0, h1, h2]; rfl
      · simp only [h0, h1]; rfl
    · simp only [h0]; rfl

/-- The band encoder answers eight bytes at a valid reference point, and PIX_OUT_OF_RANGE at every other
(41_band_encoder.md R94, R96; 20_memory.md R48). -/
theorem enc8x4_cases (s : State) (x y : Nat) :
    (7 ≤ x ∧ x < s.inW.toNat ∧ 3 ≤ y ∧ y < s.inH.toNat
      ∧ enc8x4 s x y = .ok ((List.range 8).map fun c => lane fun r => pixelBits s (x - c) (y - r)))
    ∨ (¬ (7 ≤ x ∧ x < s.inW.toNat ∧ 3 ≤ y ∧ y < s.inH.toNat) ∧ enc8x4 s x y = .error .pixOutOfRange) := by
  by_cases h : 7 ≤ x ∧ x < s.inW.toNat ∧ 3 ≤ y ∧ y < s.inH.toNat
  · obtain ⟨h1, h2, h3, h4⟩ := h
    exact .inl ⟨h1, h2, h3, h4, enc8x4_ok s x y h1 h2 h3 h4⟩
  · refine .inr ⟨h, ?_⟩
    have bad : encColumn s x y 0 = .error .pixOutOfRange ∨ encColumn s x y 7 = .error .pixOutOfRange := by
      rcases encColumn_cases s x y 0 with ⟨_, h1, h2, h3, _⟩ | h0
      · rcases encColumn_cases s x y 7 with ⟨h4, _, _, _, _⟩ | h7
        · exact absurd ⟨h4, by omega, h2, h3⟩ h
        · exact .inr h7
      · exact .inl h0
    have walk : ∀ l : List Nat, (∃ c ∈ l, encColumn s x y c = .error .pixOutOfRange) →
        l.mapM (fun c => encColumn s x y c) = .error .pixOutOfRange := by
      intro l
      induction l with
      | nil => rintro ⟨c, hc, _⟩; simp at hc
      | cons a rest ih =>
        rintro ⟨c, hc, he⟩
        rw [List.mapM_cons]
        rcases encColumn_cases s x y a with ⟨_, _, _, _, b, hb⟩ | ha
        · rcases List.mem_cons.1 hc with rfl | hc
          · rw [hb] at he; cases he
          · rw [hb, ih ⟨c, hc, he⟩]; rfl
        · rw [ha]; rfl
    rcases bad with hb | hb
    · exact walk _ ⟨0, by simp, hb⟩
    · exact walk _ ⟨7, by simp, hb⟩

/-- A band, where there is one, has eight bytes. -/
theorem enc8x4_length (s : State) (x y : Nat) (l : List Byte) (h : enc8x4 s x y = .ok l) : l.length = 8 := by
  rcases enc8x4_cases s x y with ⟨_, _, _, _, he⟩ | ⟨_, he⟩
  · rw [he] at h; cases h; simp
  · rw [he] at h; cases h

/-- Bit r of a lane is plane 0 of row r (30_encoding.md R75). -/
theorem lane_low (p : Nat → BitVec 2) (r : Nat) (hr : r < 4) : (lane p).getLsbD r = (p r).getLsbD 0 := by
  rcases (by omega : r = 0 ∨ r = 1 ∨ r = 2 ∨ r = 3) with rfl | rfl | rfl | rfl <;>
    simp [lane, putPixel]

/-- Bit 4 + r of a lane is plane 1 of row r (30_encoding.md R75). -/
theorem lane_high (p : Nat → BitVec 2) (r : Nat) (hr : r < 4) : (lane p).getLsbD (4 + r) = (p r).getLsbD 1 := by
  rcases (by omega : r = 0 ∨ r = 1 ∨ r = 2 ∨ r = 3) with rfl | rfl | rfl | rfl <;>
    simp [lane, putPixel]

end Sys2Proof.Machine
end

