-- ==== Sys2Proof/Laws/Memory.lean ====
section
/-! SUPPORT. Laws/Memory.lean: reading after writing an input space, and the canonical form every write keeps. -/

namespace Sys2Proof.Machine

variable {α : Type}

/-- A key below every listed key reads as unset. -/
theorem Memory.get_of_lt (d : α) (m : List (Nat × α)) (k : Nat) (h : ∀ c ∈ m, k < c.1) :
    Memory.get d m k = d := by
  induction m with
  | nil => rfl
  | cons c rest ih =>
    obtain ⟨j, w⟩ := c
    have hj : k < j := h (j, w) (by simp)
    rw [Memory.get, if_neg (by omega), ih fun c hc => h c (by simp [hc])]

variable [DecidableEq α]

/-- Every key a write lists was listed before, or is the one written. -/
theorem Memory.mem_put_key (d : α) (m : List (Nat × α)) (k : Nat) (v : α) :
    ∀ c ∈ Memory.put d m k v, c.1 = k ∨ ∃ c' ∈ m, c'.1 = c.1 := by
  induction m with
  | nil =>
    intro c hc
    simp only [Memory.put] at hc
    split at hc <;> simp_all
  | cons p rest ih =>
    obtain ⟨j, w⟩ := p
    intro c hc
    simp only [Memory.put] at hc
    split at hc
    · split at hc
      · exact .inr ⟨c, hc, rfl⟩
      · rcases List.mem_cons.1 hc with rfl | hc
        · exact .inl rfl
        · exact .inr ⟨c, hc, rfl⟩
    · split at hc
      · split at hc
        · exact .inr ⟨c, by simp [hc], rfl⟩
        · rcases List.mem_cons.1 hc with rfl | hc
          · exact .inl rfl
          · exact .inr ⟨c, by simp [hc], rfl⟩
      · rcases List.mem_cons.1 hc with rfl | hc
        · exact .inr ⟨(j, w), by simp, rfl⟩
        · rcases ih c hc with h | ⟨c', hc', he⟩
          · exact .inl h
          · exact .inr ⟨c', by simp [hc'], he⟩

/-- A write keeps the canonical form. -/
theorem Memory.put_wf (d : α) (m : List (Nat × α)) (k : Nat) (v : α) (h : Memory.wf d m) :
    Memory.wf d (Memory.put d m k v) := by
  induction m with
  | nil =>
    simp only [Memory.put]
    split <;> simp_all [Memory.wf]
  | cons p rest ih =>
    obtain ⟨j, w⟩ := p
    obtain ⟨hs, hd⟩ := h
    obtain ⟨hj, hs⟩ := List.pairwise_cons.1 hs
    have hrest : Memory.wf d rest := ⟨hs, fun c hc => hd c (by simp [hc])⟩
    have hw : w ≠ d := hd (j, w) (by simp)
    simp only [Memory.put]
    split
    · split
      · exact ⟨List.pairwise_cons.2 ⟨hj, hs⟩, hd⟩
      · rename_i hk hv
        refine ⟨List.pairwise_cons.2 ⟨?_, List.pairwise_cons.2 ⟨hj, hs⟩⟩, ?_⟩
        · intro c hc
          rcases List.mem_cons.1 hc with rfl | hc
          · exact hk
          · exact lt_trans hk (hj c hc)
        · intro c hc
          rcases List.mem_cons.1 hc with rfl | hc
          · exact hv
          · exact hd c hc
    · split
      · split
        · exact hrest
        · rename_i hk hv
          refine ⟨List.pairwise_cons.2 ⟨fun c hc => hk ▸ hj c hc, hs⟩, ?_⟩
          intro c hc
          rcases List.mem_cons.1 hc with rfl | hc
          · exact hv
          · exact hrest.2 c hc
      · rename_i h1 h2
        obtain ⟨ihs, ihd⟩ := ih hrest
        refine ⟨List.pairwise_cons.2 ⟨?_, ihs⟩, ?_⟩
        · intro c hc
          rcases Memory.mem_put_key d rest k v c hc with h | ⟨c', hc', he⟩
          · show j < c.1
            omega
          · have := hj c' hc'
            show j < c.1
            simp only at this
            omega
        · intro c hc
          rcases List.mem_cons.1 hc with rfl | hc
          · exact hw
          · exact ihd c hc

/-- A read after a write: the written key gives the value written, every other key what it gave before. -/
theorem Memory.get_put (d : α) (m : List (Nat × α)) (k k' : Nat) (v : α) (h : Memory.wf d m) :
    Memory.get d (Memory.put d m k v) k' = if k' = k then v else Memory.get d m k' := by
  induction m with
  | nil =>
    simp only [Memory.put]
    split <;> simp only [Memory.get] <;> split_ifs <;> simp_all
  | cons p rest ih =>
    obtain ⟨j, w⟩ := p
    obtain ⟨hs, hd⟩ := h
    obtain ⟨hj, hs⟩ := List.pairwise_cons.1 hs
    have hrest : Memory.wf d rest := ⟨hs, fun c hc => hd c (by simp [hc])⟩
    simp only [Memory.put]
    split
    · rename_i hk
      split
      · by_cases he : k' = k
        · subst he
          rw [if_pos rfl, Memory.get_of_lt]
          · simp_all
          · intro c hc
            rcases List.mem_cons.1 hc with rfl | hc
            · exact hk
            · exact lt_trans hk (hj c hc)
        · rw [if_neg he]
      · simp only [Memory.get]
        by_cases he : k' = k
        · simp [he]
        · rw [if_neg (Ne.symm he), if_neg he]
    · split
      · rename_i hk
        subst hk
        split
        · by_cases he : k' = k
          · subst he
            rw [if_pos rfl, Memory.get_of_lt d rest k' fun c hc => hj c hc]
            simp_all
          · rw [if_neg he, Memory.get, if_neg (Ne.symm he)]
        · simp only [Memory.get]
          by_cases he : k' = k
          · simp [he]
          · rw [if_neg (Ne.symm he), if_neg he, if_neg (Ne.symm he)]
      · rename_i h1 h2
        simp only [Memory.get, ih hrest]
        by_cases he : j = k'
        · rw [if_pos he, if_neg (by omega), if_pos he]
        · rw [if_neg he, if_neg he]

/-- The empty space is in canonical form. -/
theorem Memory.nil_wf (d : α) : Memory.wf d ([] : List (Nat × α)) := ⟨List.Pairwise.nil, by simp⟩

/-- A grid the host sets as a whole is in canonical form. -/
theorem gridOf_wf (points : List (BitVec 16 × BitVec 16 × Byte)) : Memory.wf pixUnset (gridOf points) := by
  have step : ∀ (ps : List (BitVec 16 × BitVec 16 × Byte)) (m : List Host.Cell), Memory.wf pixUnset m →
      Memory.wf pixUnset
        (ps.foldl (fun m p => Memory.put pixUnset m (pixKey p.1.toNat p.2.1.toNat) p.2.2) m) := by
    intro ps
    induction ps with
    | nil => exact fun m hm => hm
    | cons p rest ih => exact fun m hm => ih _ (Memory.put_wf _ _ _ _ hm)
  exact step points [] (Memory.nil_wf _)

/-- A palette the host sets as a whole is in canonical form. -/
theorem paletteOf_wf (i : Nat) (entries : List RGB) (m : List (Nat × RGB)) (h : Memory.wf paltUnset m) :
    Memory.wf paltUnset (paletteOf i entries m) := by
  induction entries generalizing i m with
  | nil => exact h
  | cons c rest ih => exact ih _ _ (Memory.put_wf _ _ _ _ h)

/-- An input write keeps both spaces in canonical form. -/
theorem applyInput_memWf (w : InputWrite) (s : State)
    (h : Memory.wf pixUnset s.pix ∧ Memory.wf paltUnset s.palt) :
    Memory.wf pixUnset (applyInput w s).pix ∧ Memory.wf paltUnset (applyInput w s).palt := by
  obtain ⟨hp, hc⟩ := h
  cases w with
  | paletted v => exact ⟨hp, hc⟩
  | width v => exact ⟨hp, hc⟩
  | height v => exact ⟨hp, hc⟩
  | paletteLen v => exact ⟨hp, hc⟩
  | pixAt x y v => exact ⟨Memory.put_wf _ _ _ _ hp, hc⟩
  | pixAll points => exact ⟨gridOf_wf points, hc⟩
  | paltAt i c => exact ⟨hp, Memory.put_wf _ _ _ _ hc⟩
  | paltAll entries => exact ⟨hp, paletteOf_wf 0 entries [] (Memory.nil_wf _)⟩

/-- No two pixels share a key (log 13). -/
theorem pixKey_inj (x y x' y' : Nat) (hx : x < 65536) (hx' : x' < 65536) :
    pixKey x y = pixKey x' y' ↔ x = x' ∧ y = y' := by
  unfold pixKey
  omega

end Sys2Proof.Machine
end

