-- ==== Sys2Proof/Laws/PerInstr.lean ====
section
/-! SUPPORT. Laws/PerInstr.lean: statements made once per instruction. -/

/-- Every instruction is well formed, and its word is a legal mode word (30_encoding.md R70, R72). -/
def Sys2Proof.Laws.LegalWord.Statement (i : Sys2Proof.Instr) : Prop :=
  i.wf = true ∧ Sys2Proof.ModeWord.legal (Sys2Proof.encode i) = true

theorem Sys2Proof.Laws.LegalWord.startTile : Sys2Proof.Laws.LegalWord.Statement .startTile := ⟨rfl, rfl⟩
theorem Sys2Proof.Laws.LegalWord.startPal : Sys2Proof.Laws.LegalWord.Statement .startPal := ⟨rfl, rfl⟩
theorem Sys2Proof.Laws.LegalWord.startSpr : Sys2Proof.Laws.LegalWord.Statement .startSpr := ⟨rfl, rfl⟩
end

