-- ==== Sys2Proof/Laws/State.lean ====
section
/-! SUPPORT. Laws/State.lean: what each named update does to each field of State, so that no proof unfolds a record update. -/

namespace Sys2Proof.Machine

/-! ### beginRun -/

@[simp] theorem beginRun_mode (m : ModeWord) (s : State) : (beginRun m s).mode = m := rfl
@[simp] theorem beginRun_phase (m : ModeWord) (s : State) : (beginRun m s).phase = s.phase := rfl
@[simp] theorem beginRun_errCode (m : ModeWord) (s : State) : (beginRun m s).errCode = 0 := rfl
@[simp] theorem beginRun_errExpected (m : ModeWord) (s : State) : (beginRun m s).errExpected = 0 := rfl
@[simp] theorem beginRun_errActual (m : ModeWord) (s : State) : (beginRun m s).errActual = 0 := rfl
@[simp] theorem beginRun_emitted (m : ModeWord) (s : State) : (beginRun m s).emitted = 0 := rfl
@[simp] theorem beginRun_unitCtr (m : ModeWord) (s : State) : (beginRun m s).unitCtr = 0 := rfl
@[simp] theorem beginRun_inPaletted (m : ModeWord) (s : State) : (beginRun m s).inPaletted = s.inPaletted := rfl
@[simp] theorem beginRun_inW (m : ModeWord) (s : State) : (beginRun m s).inW = s.inW := rfl
@[simp] theorem beginRun_inH (m : ModeWord) (s : State) : (beginRun m s).inH = s.inH := rfl
@[simp] theorem beginRun_inN (m : ModeWord) (s : State) : (beginRun m s).inN = s.inN := rfl
@[simp] theorem beginRun_pix (m : ModeWord) (s : State) : (beginRun m s).pix = s.pix := rfl
@[simp] theorem beginRun_palt (m : ModeWord) (s : State) : (beginRun m s).palt = s.palt := rfl
@[simp] theorem beginRun_out (m : ModeWord) (s : State) : (beginRun m s).out = [] := rfl
@[simp] theorem beginRun_hostFile (m : ModeWord) (s : State) : (beginRun m s).hostFile = [] := rfl
@[simp] theorem beginRun_draws (m : ModeWord) (s : State) : (beginRun m s).draws = s.draws := rfl
@[simp] theorem beginRun_hostReads (m : ModeWord) (s : State) : (beginRun m s).hostReads = s.hostReads := rfl
@[simp] theorem beginRun_agenda (m : ModeWord) (s : State) : (beginRun m s).agenda = s.agenda := rfl

/-! ### enterBusy -/

@[simp] theorem enterBusy_mode (s : State) : (enterBusy s).mode = s.mode := rfl
@[simp] theorem enterBusy_phase (s : State) : (enterBusy s).phase = .busy := rfl
@[simp] theorem enterBusy_errCode (s : State) : (enterBusy s).errCode = s.errCode := rfl
@[simp] theorem enterBusy_errExpected (s : State) : (enterBusy s).errExpected = s.errExpected := rfl
@[simp] theorem enterBusy_errActual (s : State) : (enterBusy s).errActual = s.errActual := rfl
@[simp] theorem enterBusy_emitted (s : State) : (enterBusy s).emitted = s.emitted := rfl
@[simp] theorem enterBusy_unitCtr (s : State) : (enterBusy s).unitCtr = s.unitCtr := rfl
@[simp] theorem enterBusy_inPaletted (s : State) : (enterBusy s).inPaletted = s.inPaletted := rfl
@[simp] theorem enterBusy_inW (s : State) : (enterBusy s).inW = s.inW := rfl
@[simp] theorem enterBusy_inH (s : State) : (enterBusy s).inH = s.inH := rfl
@[simp] theorem enterBusy_inN (s : State) : (enterBusy s).inN = s.inN := rfl
@[simp] theorem enterBusy_pix (s : State) : (enterBusy s).pix = s.pix := rfl
@[simp] theorem enterBusy_palt (s : State) : (enterBusy s).palt = s.palt := rfl
@[simp] theorem enterBusy_out (s : State) : (enterBusy s).out = s.out := rfl
@[simp] theorem enterBusy_hostFile (s : State) : (enterBusy s).hostFile = s.hostFile := rfl
@[simp] theorem enterBusy_draws (s : State) : (enterBusy s).draws = s.draws := rfl
@[simp] theorem enterBusy_hostReads (s : State) : (enterBusy s).hostReads = s.hostReads := rfl
@[simp] theorem enterBusy_agenda (s : State) : (enterBusy s).agenda = s.agenda := rfl

/-! ### raise -/

@[simp] theorem raise_mode (e : ErrorReport) (s : State) : (raise e s).mode = s.mode := rfl
@[simp] theorem raise_phase (e : ErrorReport) (s : State) : (raise e s).phase = .error := rfl
@[simp] theorem raise_errCode (e : ErrorReport) (s : State) : (raise e s).errCode = e.code := rfl
@[simp] theorem raise_errExpected (e : ErrorReport) (s : State) : (raise e s).errExpected = e.expected := rfl
@[simp] theorem raise_errActual (e : ErrorReport) (s : State) : (raise e s).errActual = e.actual := rfl
@[simp] theorem raise_emitted (e : ErrorReport) (s : State) : (raise e s).emitted = s.emitted := rfl
@[simp] theorem raise_unitCtr (e : ErrorReport) (s : State) : (raise e s).unitCtr = s.unitCtr := rfl
@[simp] theorem raise_inPaletted (e : ErrorReport) (s : State) : (raise e s).inPaletted = s.inPaletted := rfl
@[simp] theorem raise_inW (e : ErrorReport) (s : State) : (raise e s).inW = s.inW := rfl
@[simp] theorem raise_inH (e : ErrorReport) (s : State) : (raise e s).inH = s.inH := rfl
@[simp] theorem raise_inN (e : ErrorReport) (s : State) : (raise e s).inN = s.inN := rfl
@[simp] theorem raise_pix (e : ErrorReport) (s : State) : (raise e s).pix = s.pix := rfl
@[simp] theorem raise_palt (e : ErrorReport) (s : State) : (raise e s).palt = s.palt := rfl
@[simp] theorem raise_out (e : ErrorReport) (s : State) : (raise e s).out = s.out := rfl
@[simp] theorem raise_hostFile (e : ErrorReport) (s : State) : (raise e s).hostFile = Config.fileAfterAbort s.draws := rfl
@[simp] theorem raise_draws (e : ErrorReport) (s : State) : (raise e s).draws = s.draws + 1 := rfl
@[simp] theorem raise_hostReads (e : ErrorReport) (s : State) : (raise e s).hostReads = s.hostReads := rfl
@[simp] theorem raise_agenda (e : ErrorReport) (s : State) : (raise e s).agenda = s.agenda := rfl

/-! ### emitUnit -/

@[simp] theorem emitUnit_mode (bytes : List Byte) (s : State) : (emitUnit bytes s).mode = s.mode := rfl
@[simp] theorem emitUnit_phase (bytes : List Byte) (s : State) : (emitUnit bytes s).phase = s.phase := rfl
@[simp] theorem emitUnit_errCode (bytes : List Byte) (s : State) : (emitUnit bytes s).errCode = s.errCode := rfl
@[simp] theorem emitUnit_errExpected (bytes : List Byte) (s : State) : (emitUnit bytes s).errExpected = s.errExpected := rfl
@[simp] theorem emitUnit_errActual (bytes : List Byte) (s : State) : (emitUnit bytes s).errActual = s.errActual := rfl
@[simp] theorem emitUnit_emitted (bytes : List Byte) (s : State) : (emitUnit bytes s).emitted = s.emitted := rfl
@[simp] theorem emitUnit_unitCtr (bytes : List Byte) (s : State) : (emitUnit bytes s).unitCtr = s.unitCtr := rfl
@[simp] theorem emitUnit_inPaletted (bytes : List Byte) (s : State) : (emitUnit bytes s).inPaletted = s.inPaletted := rfl
@[simp] theorem emitUnit_inW (bytes : List Byte) (s : State) : (emitUnit bytes s).inW = s.inW := rfl
@[simp] theorem emitUnit_inH (bytes : List Byte) (s : State) : (emitUnit bytes s).inH = s.inH := rfl
@[simp] theorem emitUnit_inN (bytes : List Byte) (s : State) : (emitUnit bytes s).inN = s.inN := rfl
@[simp] theorem emitUnit_pix (bytes : List Byte) (s : State) : (emitUnit bytes s).pix = s.pix := rfl
@[simp] theorem emitUnit_palt (bytes : List Byte) (s : State) : (emitUnit bytes s).palt = s.palt := rfl
@[simp] theorem emitUnit_out (bytes : List Byte) (s : State) : (emitUnit bytes s).out = s.out ++ bytes := rfl
@[simp] theorem emitUnit_hostFile (bytes : List Byte) (s : State) : (emitUnit bytes s).hostFile = s.hostFile ++ bytes := rfl
@[simp] theorem emitUnit_draws (bytes : List Byte) (s : State) : (emitUnit bytes s).draws = s.draws := rfl
@[simp] theorem emitUnit_hostReads (bytes : List Byte) (s : State) : (emitUnit bytes s).hostReads = s.hostReads := rfl
@[simp] theorem emitUnit_agenda (bytes : List Byte) (s : State) : (emitUnit bytes s).agenda = s.agenda := rfl

/-! ### advance -/

@[simp] theorem advance_mode (len : Nat) (s : State) : (advance len s).mode = s.mode := rfl
@[simp] theorem advance_phase (len : Nat) (s : State) : (advance len s).phase = s.phase := rfl
@[simp] theorem advance_errCode (len : Nat) (s : State) : (advance len s).errCode = s.errCode := rfl
@[simp] theorem advance_errExpected (len : Nat) (s : State) : (advance len s).errExpected = s.errExpected := rfl
@[simp] theorem advance_errActual (len : Nat) (s : State) : (advance len s).errActual = s.errActual := rfl
@[simp] theorem advance_emitted (len : Nat) (s : State) : (advance len s).emitted = s.emitted + BitVec.ofNat 13 len := rfl
@[simp] theorem advance_unitCtr (len : Nat) (s : State) : (advance len s).unitCtr = s.unitCtr + 1 := rfl
@[simp] theorem advance_inPaletted (len : Nat) (s : State) : (advance len s).inPaletted = s.inPaletted := rfl
@[simp] theorem advance_inW (len : Nat) (s : State) : (advance len s).inW = s.inW := rfl
@[simp] theorem advance_inH (len : Nat) (s : State) : (advance len s).inH = s.inH := rfl
@[simp] theorem advance_inN (len : Nat) (s : State) : (advance len s).inN = s.inN := rfl
@[simp] theorem advance_pix (len : Nat) (s : State) : (advance len s).pix = s.pix := rfl
@[simp] theorem advance_palt (len : Nat) (s : State) : (advance len s).palt = s.palt := rfl
@[simp] theorem advance_out (len : Nat) (s : State) : (advance len s).out = s.out := rfl
@[simp] theorem advance_hostFile (len : Nat) (s : State) : (advance len s).hostFile = s.hostFile := rfl
@[simp] theorem advance_draws (len : Nat) (s : State) : (advance len s).draws = s.draws := rfl
@[simp] theorem advance_hostReads (len : Nat) (s : State) : (advance len s).hostReads = s.hostReads := rfl
@[simp] theorem advance_agenda (len : Nat) (s : State) : (advance len s).agenda = s.agenda := rfl

/-! ### finish -/

@[simp] theorem finish_mode (s : State) : (finish s).mode = s.mode := rfl
@[simp] theorem finish_phase (s : State) : (finish s).phase = .done := rfl
@[simp] theorem finish_errCode (s : State) : (finish s).errCode = s.errCode := rfl
@[simp] theorem finish_errExpected (s : State) : (finish s).errExpected = s.errExpected := rfl
@[simp] theorem finish_errActual (s : State) : (finish s).errActual = s.errActual := rfl
@[simp] theorem finish_emitted (s : State) : (finish s).emitted = s.emitted := rfl
@[simp] theorem finish_unitCtr (s : State) : (finish s).unitCtr = s.unitCtr := rfl
@[simp] theorem finish_inPaletted (s : State) : (finish s).inPaletted = s.inPaletted := rfl
@[simp] theorem finish_inW (s : State) : (finish s).inW = s.inW := rfl
@[simp] theorem finish_inH (s : State) : (finish s).inH = s.inH := rfl
@[simp] theorem finish_inN (s : State) : (finish s).inN = s.inN := rfl
@[simp] theorem finish_pix (s : State) : (finish s).pix = s.pix := rfl
@[simp] theorem finish_palt (s : State) : (finish s).palt = s.palt := rfl
@[simp] theorem finish_out (s : State) : (finish s).out = s.out := rfl
@[simp] theorem finish_hostFile (s : State) : (finish s).hostFile = s.hostFile := rfl
@[simp] theorem finish_draws (s : State) : (finish s).draws = s.draws := rfl
@[simp] theorem finish_hostReads (s : State) : (finish s).hostReads = s.hostReads := rfl
@[simp] theorem finish_agenda (s : State) : (finish s).agenda = s.agenda := rfl

/-! ### resetCore -/

@[simp] theorem resetCore_mode (s : State) : (resetCore s).mode = 0b00#2 := rfl
@[simp] theorem resetCore_phase (s : State) : (resetCore s).phase = .idle := rfl
@[simp] theorem resetCore_errCode (s : State) : (resetCore s).errCode = 0 := rfl
@[simp] theorem resetCore_errExpected (s : State) : (resetCore s).errExpected = 0 := rfl
@[simp] theorem resetCore_errActual (s : State) : (resetCore s).errActual = 0 := rfl
@[simp] theorem resetCore_emitted (s : State) : (resetCore s).emitted = 0 := rfl
@[simp] theorem resetCore_unitCtr (s : State) : (resetCore s).unitCtr = 0 := rfl
@[simp] theorem resetCore_inPaletted (s : State) : (resetCore s).inPaletted = s.inPaletted := rfl
@[simp] theorem resetCore_inW (s : State) : (resetCore s).inW = s.inW := rfl
@[simp] theorem resetCore_inH (s : State) : (resetCore s).inH = s.inH := rfl
@[simp] theorem resetCore_inN (s : State) : (resetCore s).inN = s.inN := rfl
@[simp] theorem resetCore_pix (s : State) : (resetCore s).pix = s.pix := rfl
@[simp] theorem resetCore_palt (s : State) : (resetCore s).palt = s.palt := rfl
@[simp] theorem resetCore_out (s : State) : (resetCore s).out = s.out := rfl
@[simp] theorem resetCore_hostFile (s : State) : (resetCore s).hostFile = fileAfterReset s := rfl
@[simp] theorem resetCore_draws (s : State) : (resetCore s).draws = s.draws + 1 := rfl
@[simp] theorem resetCore_hostReads (s : State) : (resetCore s).hostReads = s.hostReads := rfl
@[simp] theorem resetCore_agenda (s : State) : (resetCore s).agenda = s.agenda := rfl

/-! ### recordRead -/

@[simp] theorem recordRead_mode (v : Word) (s : State) : (recordRead v s).mode = s.mode := rfl
@[simp] theorem recordRead_phase (v : Word) (s : State) : (recordRead v s).phase = s.phase := rfl
@[simp] theorem recordRead_errCode (v : Word) (s : State) : (recordRead v s).errCode = s.errCode := rfl
@[simp] theorem recordRead_errExpected (v : Word) (s : State) : (recordRead v s).errExpected = s.errExpected := rfl
@[simp] theorem recordRead_errActual (v : Word) (s : State) : (recordRead v s).errActual = s.errActual := rfl
@[simp] theorem recordRead_emitted (v : Word) (s : State) : (recordRead v s).emitted = s.emitted := rfl
@[simp] theorem recordRead_unitCtr (v : Word) (s : State) : (recordRead v s).unitCtr = s.unitCtr := rfl
@[simp] theorem recordRead_inPaletted (v : Word) (s : State) : (recordRead v s).inPaletted = s.inPaletted := rfl
@[simp] theorem recordRead_inW (v : Word) (s : State) : (recordRead v s).inW = s.inW := rfl
@[simp] theorem recordRead_inH (v : Word) (s : State) : (recordRead v s).inH = s.inH := rfl
@[simp] theorem recordRead_inN (v : Word) (s : State) : (recordRead v s).inN = s.inN := rfl
@[simp] theorem recordRead_pix (v : Word) (s : State) : (recordRead v s).pix = s.pix := rfl
@[simp] theorem recordRead_palt (v : Word) (s : State) : (recordRead v s).palt = s.palt := rfl
@[simp] theorem recordRead_out (v : Word) (s : State) : (recordRead v s).out = s.out := rfl
@[simp] theorem recordRead_hostFile (v : Word) (s : State) : (recordRead v s).hostFile = s.hostFile := rfl
@[simp] theorem recordRead_draws (v : Word) (s : State) : (recordRead v s).draws = s.draws := rfl
@[simp] theorem recordRead_hostReads (v : Word) (s : State) : (recordRead v s).hostReads = s.hostReads ++ [v] := rfl
@[simp] theorem recordRead_agenda (v : Word) (s : State) : (recordRead v s).agenda = s.agenda := rfl

/-! ### takeMove -/

@[simp] theorem takeMove_mode (rest : List Move) (s : State) : (takeMove rest s).mode = s.mode := rfl
@[simp] theorem takeMove_phase (rest : List Move) (s : State) : (takeMove rest s).phase = s.phase := rfl
@[simp] theorem takeMove_errCode (rest : List Move) (s : State) : (takeMove rest s).errCode = s.errCode := rfl
@[simp] theorem takeMove_errExpected (rest : List Move) (s : State) : (takeMove rest s).errExpected = s.errExpected := rfl
@[simp] theorem takeMove_errActual (rest : List Move) (s : State) : (takeMove rest s).errActual = s.errActual := rfl
@[simp] theorem takeMove_emitted (rest : List Move) (s : State) : (takeMove rest s).emitted = s.emitted := rfl
@[simp] theorem takeMove_unitCtr (rest : List Move) (s : State) : (takeMove rest s).unitCtr = s.unitCtr := rfl
@[simp] theorem takeMove_inPaletted (rest : List Move) (s : State) : (takeMove rest s).inPaletted = s.inPaletted := rfl
@[simp] theorem takeMove_inW (rest : List Move) (s : State) : (takeMove rest s).inW = s.inW := rfl
@[simp] theorem takeMove_inH (rest : List Move) (s : State) : (takeMove rest s).inH = s.inH := rfl
@[simp] theorem takeMove_inN (rest : List Move) (s : State) : (takeMove rest s).inN = s.inN := rfl
@[simp] theorem takeMove_pix (rest : List Move) (s : State) : (takeMove rest s).pix = s.pix := rfl
@[simp] theorem takeMove_palt (rest : List Move) (s : State) : (takeMove rest s).palt = s.palt := rfl
@[simp] theorem takeMove_out (rest : List Move) (s : State) : (takeMove rest s).out = s.out := rfl
@[simp] theorem takeMove_hostFile (rest : List Move) (s : State) : (takeMove rest s).hostFile = s.hostFile := rfl
@[simp] theorem takeMove_draws (rest : List Move) (s : State) : (takeMove rest s).draws = s.draws := rfl
@[simp] theorem takeMove_hostReads (rest : List Move) (s : State) : (takeMove rest s).hostReads = s.hostReads := rfl
@[simp] theorem takeMove_agenda (rest : List Move) (s : State) : (takeMove rest s).agenda = rest := rfl

/-! ### applyInput: a host input write leaves everything but the inputs -/

@[simp] theorem applyInput_mode (w : InputWrite) (s : State) : (applyInput w s).mode = s.mode := by cases w <;> rfl
@[simp] theorem applyInput_phase (w : InputWrite) (s : State) : (applyInput w s).phase = s.phase := by cases w <;> rfl
@[simp] theorem applyInput_errCode (w : InputWrite) (s : State) : (applyInput w s).errCode = s.errCode := by cases w <;> rfl
@[simp] theorem applyInput_errExpected (w : InputWrite) (s : State) : (applyInput w s).errExpected = s.errExpected := by cases w <;> rfl
@[simp] theorem applyInput_errActual (w : InputWrite) (s : State) : (applyInput w s).errActual = s.errActual := by cases w <;> rfl
@[simp] theorem applyInput_emitted (w : InputWrite) (s : State) : (applyInput w s).emitted = s.emitted := by cases w <;> rfl
@[simp] theorem applyInput_unitCtr (w : InputWrite) (s : State) : (applyInput w s).unitCtr = s.unitCtr := by cases w <;> rfl
@[simp] theorem applyInput_out (w : InputWrite) (s : State) : (applyInput w s).out = s.out := by cases w <;> rfl
@[simp] theorem applyInput_hostFile (w : InputWrite) (s : State) : (applyInput w s).hostFile = s.hostFile := by cases w <;> rfl
@[simp] theorem applyInput_draws (w : InputWrite) (s : State) : (applyInput w s).draws = s.draws := by cases w <;> rfl
@[simp] theorem applyInput_hostReads (w : InputWrite) (s : State) : (applyInput w s).hostReads = s.hostReads := by cases w <;> rfl
@[simp] theorem applyInput_agenda (w : InputWrite) (s : State) : (applyInput w s).agenda = s.agenda := by cases w <;> rfl

/-! ### acceptUnit -/

@[simp] theorem acceptUnit_mode (bytes : List Byte) (s : State) : (acceptUnit bytes s).mode = s.mode := by
  simp only [acceptUnit]; split <;> rfl
@[simp] theorem acceptUnit_errCode (bytes : List Byte) (s : State) : (acceptUnit bytes s).errCode = s.errCode := by
  simp only [acceptUnit]; split <;> rfl
@[simp] theorem acceptUnit_errExpected (bytes : List Byte) (s : State) : (acceptUnit bytes s).errExpected = s.errExpected := by
  simp only [acceptUnit]; split <;> rfl
@[simp] theorem acceptUnit_errActual (bytes : List Byte) (s : State) : (acceptUnit bytes s).errActual = s.errActual := by
  simp only [acceptUnit]; split <;> rfl
@[simp] theorem acceptUnit_emitted (bytes : List Byte) (s : State) : (acceptUnit bytes s).emitted = s.emitted + BitVec.ofNat 13 bytes.length := by
  simp only [acceptUnit]; split <;> rfl
@[simp] theorem acceptUnit_unitCtr (bytes : List Byte) (s : State) : (acceptUnit bytes s).unitCtr = s.unitCtr + 1 := by
  simp only [acceptUnit]; split <;> rfl
@[simp] theorem acceptUnit_inPaletted (bytes : List Byte) (s : State) : (acceptUnit bytes s).inPaletted = s.inPaletted := by
  simp only [acceptUnit]; split <;> rfl
@[simp] theorem acceptUnit_inW (bytes : List Byte) (s : State) : (acceptUnit bytes s).inW = s.inW := by
  simp only [acceptUnit]; split <;> rfl
@[simp] theorem acceptUnit_inH (bytes : List Byte) (s : State) : (acceptUnit bytes s).inH = s.inH := by
  simp only [acceptUnit]; split <;> rfl
@[simp] theorem acceptUnit_inN (bytes : List Byte) (s : State) : (acceptUnit bytes s).inN = s.inN := by
  simp only [acceptUnit]; split <;> rfl
@[simp] theorem acceptUnit_pix (bytes : List Byte) (s : State) : (acceptUnit bytes s).pix = s.pix := by
  simp only [acceptUnit]; split <;> rfl
@[simp] theorem acceptUnit_palt (bytes : List Byte) (s : State) : (acceptUnit bytes s).palt = s.palt := by
  simp only [acceptUnit]; split <;> rfl
@[simp] theorem acceptUnit_out (bytes : List Byte) (s : State) : (acceptUnit bytes s).out = s.out ++ bytes := by
  simp only [acceptUnit]; split <;> rfl
@[simp] theorem acceptUnit_hostFile (bytes : List Byte) (s : State) : (acceptUnit bytes s).hostFile = s.hostFile ++ bytes := by
  simp only [acceptUnit]; split <;> rfl
@[simp] theorem acceptUnit_draws (bytes : List Byte) (s : State) : (acceptUnit bytes s).draws = s.draws := by
  simp only [acceptUnit]; split <;> rfl
@[simp] theorem acceptUnit_hostReads (bytes : List Byte) (s : State) : (acceptUnit bytes s).hostReads = s.hostReads := by
  simp only [acceptUnit]; split <;> rfl
@[simp] theorem acceptUnit_agenda (bytes : List Byte) (s : State) : (acceptUnit bytes s).agenda = s.agenda := by
  simp only [acceptUnit]; split <;> rfl

/-- The accepted unit that brings UNIT to TOTAL ends the run, and no other does. -/
theorem acceptUnit_phase (bytes : List Byte) (s : State) :
    (acceptUnit bytes s).phase
      = if some (s.unitCtr + 1).toNat = totalUnits s.mode then .done else s.phase := by
  by_cases h : some (s.unitCtr + 1).toNat = totalUnits s.mode
  · rw [if_pos h, acceptUnit, if_pos (by exact h), finish_phase]
  · rw [if_neg h, acceptUnit, if_neg (by exact h), advance_phase, emitUnit_phase]

end Sys2Proof.Machine
end

