-- ==== Sys2Proof/Laws/Sequencer.lean ====
section
/-! SUPPORT. Laws/Sequencer.lean: everything validation, START, a unit and a STEP can answer. -/

namespace Sys2Proof.Machine

/-- There are four mode words. -/
theorem modeWord_cases (m : ModeWord) :
    m = Config.tileWord ∨ m = Config.palWord ∨ m = Config.sprWord ∨ m = Config.illegalWord := by
  revert m; decide

@[simp] theorem totalUnits_pal : totalUnits Config.palWord = some 32 := rfl
@[simp] theorem totalUnits_tile : totalUnits Config.tileWord = some 512 := rfl
@[simp] theorem totalUnits_spr : totalUnits Config.sprWord = some 512 := rfl
@[simp] theorem totalUnits_illegal : totalUnits Config.illegalWord = none := rfl
@[simp] theorem bytesPerUnit_pal : bytesPerUnit Config.palWord = 1 := rfl
@[simp] theorem bytesPerUnit_tile : bytesPerUnit Config.tileWord = 8 := rfl
@[simp] theorem bytesPerUnit_spr : bytesPerUnit Config.sprWord = 8 := rfl

/-! ### Validation -/

/-- The palette check passes exactly at length 32. -/
theorem palCheck_ok (s : State) : palCheck s = .ok () ↔ s.inN.toNat = 32 := by
  unfold palCheck
  split <;> simp_all

/-- The tile check passes exactly on multiples of 8 with 256 tiles. -/
theorem tileCheck_ok (s : State) :
    tileCheck s = .ok () ↔
      s.inW.toNat % 8 = 0 ∧ s.inH.toNat % 8 = 0 ∧ (s.inW.toNat / 8) * (s.inH.toNat / 8) = 256 := by
  unfold tileCheck tilesInGrid Config.tileSize Config.tileCount
  split <;> simp only [reduceCtorEq, false_iff, true_iff] <;> tauto

/-- The sprite check passes exactly on multiples of 16 with 64 sprites. -/
theorem spriteCheck_ok (s : State) :
    spriteCheck s = .ok () ↔
      s.inW.toNat % 16 = 0 ∧ s.inH.toNat % 16 = 0 ∧ (s.inW.toNat / 16) * (s.inH.toNat / 16) = 64 := by
  unfold spriteCheck spritesInGrid Config.spriteSize Config.spriteCount
  split <;> simp only [reduceCtorEq, false_iff, true_iff] <;> tauto

/-- What a failed validation reports: one of the four rows a START can raise (60_exceptions.md R130). -/
theorem validate_error (m : ModeWord) (s : State) (e : ErrorReport) (h : validate m s = .error e) :
    (m = Config.illegalWord ∧ e = illegalModeReport)
    ∨ (m ≠ Config.illegalWord ∧ s.inPaletted = false ∧ e = notPalettedReport)
    ∨ (m = Config.palWord ∧ s.inPaletted = true ∧ s.inN.toNat ≠ 32 ∧ e = sizeReport 32 s.inN.toNat)
    ∨ (m = Config.tileWord ∧ s.inPaletted = true ∧ tileCheck s ≠ .ok () ∧ e = sizeReport 256 (tilesInGrid s))
    ∨ (m = Config.sprWord ∧ s.inPaletted = true ∧ spriteCheck s ≠ .ok () ∧ e = sizeReport 64 (spritesInGrid s)) := by
  unfold validate at h
  split at h
  · cases h; exact .inl ⟨‹_›, rfl⟩
  rename_i hm
  split at h
  · cases h; exact .inr (.inl ⟨hm, ‹_›, rfl⟩)
  rename_i hp
  have hp : s.inPaletted = true := by simpa using hp
  split at h
  · rename_i hpal
    have hn : s.inN.toNat ≠ 32 := fun hn => by rw [(palCheck_ok s).2 hn] at h; cases h
    unfold palCheck at h
    rw [if_pos hn] at h
    cases h
    exact .inr (.inr (.inl ⟨hpal, hp, hn, rfl⟩))
  rename_i hpal
  split at h
  · rename_i htile
    have hn : tileCheck s ≠ .ok () := fun hn => by rw [hn] at h; cases h
    unfold tileCheck at h
    split at h
    · cases h
      exact .inr (.inr (.inr (.inl ⟨htile, hp, hn, rfl⟩)))
    · cases h
  · rename_i htile
    have hspr : m = Config.sprWord := by rcases modeWord_cases m with h | h | h | h <;> simp_all
    have hn : spriteCheck s ≠ .ok () := fun hn => by rw [hn] at h; cases h
    unfold spriteCheck at h
    split at h
    · cases h
      exact .inr (.inr (.inr (.inr ⟨hspr, hp, hn, rfl⟩)))
    · cases h

/-- What a passed validation says: a legal mode, a paletted image, and the mode's own check (44_sequencer.md R118). -/
theorem validate_ok (m : ModeWord) (s : State) (u : Unit) (h : validate m s = .ok u) :
    s.inPaletted = true ∧
      ((m = Config.palWord ∧ palCheck s = .ok ()) ∨ (m = Config.tileWord ∧ tileCheck s = .ok ())
        ∨ (m = Config.sprWord ∧ spriteCheck s = .ok ())) := by
  unfold validate at h
  split at h
  · cases h
  split at h
  · cases h
  rename_i hm hp
  refine ⟨by simpa using hp, ?_⟩
  split at h
  · exact .inl ⟨‹_›, h⟩
  split at h
  · exact .inr (.inl ⟨‹_›, h⟩)
  · exact .inr (.inr ⟨by rcases modeWord_cases m with h | h | h | h <;> simp_all, h⟩)

/-- Validation looks at the inputs only, so the writes START makes before it change nothing. -/
@[simp] theorem validate_beginRun (m m' : ModeWord) (s : State) : validate m (beginRun m' s) = validate m s := rfl

/-! ### START -/

/-- Everything a START can answer (44_sequencer.md R117). -/
theorem start_cases (m : ModeWord) (s : State) :
    (s.phase = .busy ∧ start m s = .fault .startWhileBusy)
    ∨ (s.phase ≠ .busy ∧ ∃ e, validate m s = .error e ∧ start m s = .next (raise e (beginRun m s)))
    ∨ (s.phase ≠ .busy ∧ validate m s = .ok () ∧ start m s = .next (enterBusy (beginRun m s))) := by
  unfold start
  rw [validate_beginRun]
  by_cases hb : s.phase = .busy
  · exact .inl ⟨hb, if_pos hb⟩
  · rw [if_neg hb]
    cases hv : validate m s with
    | error e => exact .inr (.inl ⟨hb, e, rfl, rfl⟩)
    | ok u => exact .inr (.inr ⟨hb, rfl, rfl⟩)

/-! ### Units -/

/-- A unit, where there is one, has the mode's bytes per unit (10_state.md R35). -/
theorem unitOf_length (m : ModeWord) (s : State) (u : Nat) (l : List Byte) (h : unitOf m s u = .ok l) :
    l.length = bytesPerUnit m := by
  unfold unitOf at h
  split at h
  · rename_i hm
    subst hm
    unfold unitPal at h
    cases hp : palRead s u with
    | error r => rw [hp] at h; cases h
    | ok c => rw [hp] at h; cases h; rfl
  split at h
  · rename_i hm
    subst hm
    exact enc8x4_length s _ _ l h
  split at h
  · rename_i hm
    subst hm
    exact enc8x4_length s _ _ l h
  · cases h

/-- The stream of n units has n times the mode's bytes per unit. -/
theorem streamOf_length (m : ModeWord) (s : State) (n : Nat) (l : List Byte) (h : streamOf m s n = .ok l) :
    l.length = n * bytesPerUnit m := by
  induction n generalizing l with
  | zero => cases h; simp
  | succ n ih =>
    simp only [streamOf] at h
    cases ha : streamOf m s n with
    | error r => rw [ha] at h; cases h
    | ok a =>
      cases hb : unitOf m s n with
      | error r => rw [ha, hb] at h; cases h
      | ok b =>
        rw [ha, hb] at h
        cases h
        rw [List.length_append, ih a ha, unitOf_length m s n b hb]
        ring

/-- One more unit extends the stream by that unit. -/
theorem streamOf_succ (m : ModeWord) (s : State) (n : Nat) (a b : List Byte) (ha : streamOf m s n = .ok a)
    (hb : unitOf m s n = .ok b) : streamOf m s (n + 1) = .ok (a ++ b) := by
  simp only [streamOf, ha, hb]
  rfl

/-! ### STEP -/

/-- Everything a core turn can answer (44_sequencer.md R119 to R122). -/
theorem coreStep_cases (answer : SinkAnswer) (s : State) :
    (s.phase ≠ .busy ∧ coreStep answer s = .next s)
    ∨ (s.phase = .busy ∧ ∃ r, unitOf s.mode s s.unitCtr.toNat = .error r ∧ coreStep answer s = .fault r)
    ∨ (s.phase = .busy ∧ ∃ l, unitOf s.mode s s.unitCtr.toNat = .ok l ∧ answer = .accept
        ∧ coreStep answer s = .next (acceptUnit l s))
    ∨ (s.phase = .busy ∧ ∃ l e, unitOf s.mode s s.unitCtr.toNat = .ok l ∧ answer = .refuse e
        ∧ coreStep answer s = .next (raise (ioReport e) s)) := by
  unfold coreStep
  by_cases hb : s.phase = .busy
  · rw [if_pos hb]
    cases hu : unitOf s.mode s s.unitCtr.toNat with
    | error r => exact .inr (.inl ⟨hb, r, rfl, rfl⟩)
    | ok l =>
      cases answer with
      | accept => exact .inr (.inr (.inl ⟨hb, l, rfl, rfl, rfl⟩))
      | refuse e => exact .inr (.inr (.inr ⟨hb, l, e, rfl, rfl, rfl⟩))
  · exact .inl ⟨hb, if_neg hb⟩

end Sys2Proof.Machine
end

