-- ==== Sys2Proof/Laws/Step.lean ====
section
/-! SUPPORT. Laws/Step.lean: everything one step can do. -/

namespace Sys2Proof.Machine

/-- A command's meaning is START with its mode word (44_sequencer.md R117). -/
theorem exec_eq_start (i : Instr) (s : State) : exec i s = start (encode i) s := by
  cases i <;> rfl

/-- What one step can do, move by move. -/
theorem step_cases (s : State) :
    (errReserved s.errCode = true ∧ resetIsNext s = false ∧ step s = .fault .errCodeReserved)
    ∨ (s.agenda = [] ∧ step s = .next s)
    ∨ (∃ v rest, s.agenda = .write cmdNumber v :: rest ∧ step s = start (modeWordOf v) (takeMove rest s))
    ∨ (∃ n v rest, n ≠ cmdNumber ∧ s.agenda = .write n v :: rest ∧ step s = .next (takeMove rest s))
    ∨ (∃ n rest, s.agenda = .read n :: rest ∧ step s = .next (hostRead n (takeMove rest s)))
    ∨ (∃ w rest, s.agenda = .set w :: rest ∧ step s = setInput w (takeMove rest s))
    ∨ (∃ rest, s.agenda = .reset :: rest ∧ step s = .next (resetCore (takeMove rest s)))
    ∨ (∃ answer rest, s.agenda = .step answer :: rest ∧ step s = coreStep answer (takeMove rest s)) := by
  by_cases hr : errReserved s.errCode = true ∧ resetIsNext s = false
  · exact .inl ⟨hr.1, hr.2, by simp [step, turn, hr.1, hr.2]⟩
  refine .inr ?_
  have ht : turn s = match s.agenda with
      | [] => .made (.next s)
      | a :: rest => makeMove a (takeMove rest s) := by
    exact (if_neg (by simpa using hr)).trans (by cases s.agenda <;> rfl)
  cases ha : s.agenda with
  | nil => exact .inl ⟨rfl, by simp [step, ht, ha]⟩
  | cons a rest =>
    refine .inr ?_
    have hstep : step s = match makeMove a (takeMove rest s) with
        | .run i t => exec i t
        | .made o => o := by
      have hturn : turn s = makeMove a (takeMove rest s) := by rw [ht, ha]
      show (match turn s with
        | .run i t => exec i t
        | .made o => o) = _
      rw [hturn]
    cases a with
    | write n v =>
      by_cases hn : n = cmdNumber
      · subst hn
        refine .inl ⟨v, rest, rfl, ?_⟩
        rw [hstep]
        simp only [makeMove, hostWrite, if_pos, decodeCmd]
        rcases modeWord_cases (modeWordOf v) with h | h | h | h <;> rw [h] <;> rfl
      · exact .inr (.inl ⟨n, v, rest, hn, rfl, by rw [hstep]; simp only [makeMove, hostWrite, if_neg hn]⟩)
    | read n => exact .inr (.inr (.inl ⟨n, rest, rfl, by rw [hstep]; rfl⟩))
    | set w => exact .inr (.inr (.inr (.inl ⟨w, rest, rfl, by rw [hstep]; rfl⟩)))
    | reset => exact .inr (.inr (.inr (.inr (.inl ⟨rest, rfl, by rw [hstep]; rfl⟩))))
    | step answer => exact .inr (.inr (.inr (.inr (.inr ⟨answer, rest, rfl, by rw [hstep]; rfl⟩))))

/-- No step is ever refused: every move has a meaning or a named fault. -/
theorem step_not_refused (s : State) (r : Refusal) : step s ≠ .refused r := by
  have hstart (m : ModeWord) (t : State) : start m t ≠ .refused r := by
    rcases start_cases m t with ⟨_, h⟩ | ⟨_, e, _, h⟩ | ⟨_, _, h⟩ <;> rw [h] <;> simp
  have hcore (a : SinkAnswer) (t : State) : coreStep a t ≠ .refused r := by
    rcases coreStep_cases a t with ⟨_, h⟩ | ⟨_, q, _, h⟩ | ⟨_, l, _, _, h⟩ | ⟨_, l, e, _, _, h⟩ <;> rw [h] <;> simp
  rcases step_cases s with ⟨_, _, h⟩ | ⟨_, h⟩ | ⟨v, rest, _, h⟩ | ⟨n, v, rest, _, _, h⟩ | ⟨n, rest, _, h⟩
    | ⟨w, rest, _, h⟩ | ⟨rest, _, h⟩ | ⟨a, rest, _, h⟩ <;> rw [h]
  · simp
  · simp
  · exact hstart _ _
  · simp
  · simp
  · unfold setInput; split <;> simp
  · simp
  · exact hcore _ _

end Sys2Proof.Machine
end

