-- ==== Sys2Proof/Tests/Slice0.lean ====
section
/-! SUPPORT. Tests/Slice0.lean: smoke tests of the well-formedness checks, decoding and single-step tests whose expected
values are the spec's own vectors (95_test_vectors.md), and for every statement with hypotheses a state that meets them. -/

namespace Sys2Proof.Tests

open Sys2Proof.Machine

/-! ### Helpers -/

/-- Not BUSY, a paletted 128 x 128 image with 32 palette entries: valid in every mode. -/
def ready (moves : List Move) : State :=
  { State.reset with inPaletted := true, inW := 128, inH := 128, inN := 32, agenda := moves }

/-- BUSY at unit 0 of a run of mode m. -/
def busy (m : ModeWord) (moves : List Move) : State := { ready moves with mode := m, phase := .busy }

/-- BUSY at the last unit of a palette run over an all-black palette. -/
def lastPal (moves : List Move) : State :=
  { ready moves with
    mode := 0b01#2, phase := .busy, unitCtr := 31, emitted := 31,
    out := List.replicate 31 0, hostFile := List.replicate 31 0 }

/-- DONE, after that run. -/
def donePal (moves : List Move) : State :=
  { ready moves with
    mode := 0b01#2, phase := .done, unitCtr := 32, emitted := 32,
    out := List.replicate 32 0, hostFile := List.replicate 32 0 }

/-- A grid of the given size and pixels. -/
def grid (w h : BitVec 16) (pix : List Host.Cell) : State :=
  { State.reset with inPaletted := true, inW := w, inH := h, pix := pix }

/-- The outcome is a next state of which p holds. -/
def nextIs (o : Host.Outcome State Fault Refusal) (p : State → Bool) : Bool :=
  match o with
  | .next t => p t
  | .fault _ => false
  | .refused _ => false

/-- The outcome is the fault f. -/
def faultIs (o : Host.Outcome State Fault Refusal) (f : Fault) : Bool :=
  match o with
  | .next _ => false
  | .fault g => decide (g = f)
  | .refused _ => false

/-- The bytes are l. -/
def bytesAre (e : Except Fault (List Byte)) (l : List Byte) : Bool :=
  match e with
  | .ok b => decide (b = l)
  | .error _ => false

/-- The state is ERROR with this report and nothing emitted. -/
def errorIs (m : ModeWord) (code : BitVec 3) (expected : BitVec 16) (actual : BitVec 32) (t : State) : Bool :=
  decide (t.phase = .error ∧ t.mode = m ∧ t.errCode = code ∧ t.errExpected = expected ∧ t.errActual = actual
    ∧ t.emitted = 0 ∧ t.unitCtr = 0 ∧ t.out = [])

/-! ### Well-formedness: the checks refuse ill-formed terms -/

theorem test_wf_both_flags_refused : ModeWord.legal 0b11#2 = false := by decide
theorem test_wf_legal_words : (ModeWord.legal 0b00#2 && ModeWord.legal 0b01#2 && ModeWord.legal 0b10#2) = true := by
  decide
theorem test_wf_instructions : ∀ i : Instr, i.wf = true := by intro i; cases i <;> rfl
theorem test_memory_unsorted_refused : ¬ Memory.wf pixUnset [(2, 1), (1, 1)] := by decide
theorem test_memory_repeat_refused : ¬ Memory.wf pixUnset [(1, 1), (1, 2)] := by decide
theorem test_memory_unset_entry_refused : ¬ Memory.wf pixUnset [(1, 0)] := by decide
theorem test_memory_put_removes : Memory.put pixUnset [(1, 5), (3, 7)] 3 0 = [(1, 5)] := by decide

/-! ### Decoding: words written out from the opcode map (30_encoding.md R70) -/

theorem test_decode_tile : decodeTableWord 8 0b00 = some .startTile := by decide
theorem test_decode_pal : decodeTableWord 8 0b01 = some .startPal := by decide
theorem test_decode_spr : decodeTableWord 8 0b10 = some .startSpr := by decide
theorem test_decode_illegal : decodeTableWord 8 0b11 = none := by decide
theorem test_decode_high_bits : decodeCmd 0xFFFFFFFE#32 = .ok .startSpr := by decide

/-! ### The encoders (95_test_vectors.md 2.1 to 2.4) -/

theorem test_encColor_mixed : encColor ⟨0xDE, 0xAD, 0xBE⟩ = 0xAE := by decide
theorem test_encColor_truncates : encColor ⟨0x7F, 0x7F, 0x7F⟩ = 0x5B := by decide
theorem test_encColor_blue : encColor ⟨0x00, 0x00, 0xBF⟩ = 0x80 := by decide

/-- Only P(x - 7, y - 3) = 3, reference (7, 7). -/
theorem test_enc8x4_top_left :
    bytesAre (enc8x4 (grid 8 8 [(pixKey 0 4, 3)]) 7 7) [0, 0, 0, 0, 0, 0, 0, 0x88] = true := by decide

/-- Only P(x - 2, y - 1) = 2, reference (7, 7), the index carrying high bits that are ignored. -/
theorem test_enc8x4_plane_one :
    bytesAre (enc8x4 (grid 8 8 [(pixKey 5 6, 0xFE)]) 7 7) [0, 0, 0x20, 0, 0, 0, 0, 0] = true := by decide

/-- A negative coordinate faults (20_memory.md R48). -/
theorem test_enc8x4_negative :
    (match enc8x4 (grid 8 8 []) 6 7 with | .error f => decide (f = .pixOutOfRange) | .ok _ => false) = true := by
  decide

/-- The asymmetric tile of 95_test_vectors.md 2.3, rows 0 to 7. -/
def asymmetric : List Host.Cell :=
  [(pixKey 1 0, 1), (pixKey 2 0, 2), (pixKey 3 0, 3), (pixKey 5 0, 1), (pixKey 6 0, 2), (pixKey 7 0, 3)]
  ++ [(pixKey 0 2, 3), (pixKey 1 2, 3), (pixKey 2 2, 3), (pixKey 3 2, 3)]
  ++ [(pixKey 4 2, 3), (pixKey 5 2, 3), (pixKey 6 2, 3), (pixKey 7 2, 3)]
  ++ [(pixKey 0 3, 1), (pixKey 7 3, 2), (pixKey 1 5, 2), (pixKey 5 6, 3)]
  ++ [(pixKey 0 7, 1), (pixKey 1 7, 1), (pixKey 2 7, 1), (pixKey 3 7, 1)]
  ++ [(pixKey 4 7, 1), (pixKey 5 7, 1), (pixKey 6 7, 1), (pixKey 7 7, 1)]

theorem test_encTile_asymmetric :
    bytesAre (encTile (grid 8 8 asymmetric) 0 0)
      ([0x01, 0x01, 0x23, 0x01, 0x01, 0x01, 0x41, 0x01] ++ [0xBA, 0xA2, 0x2A, 0x22, 0xAA, 0xA2, 0x2A, 0x23]) = true := by
  decide

/-- Pixel (5, 13) of a sprite: sub-block 4, byte 34, 0x04 (95_test_vectors.md 2.4). -/
theorem test_unitSprite_bottom_left :
    bytesAre (unitSprite (grid 128 128 [(pixKey 5 13, 1)]) 4) [0, 0, 0x04, 0, 0, 0, 0, 0] = true := by decide

/-- Pixel (0, 16) = 2 is sprite 8, sub-block 5, byte 7, bit 7 (95_test_vectors.md L3-P3). -/
theorem test_unitSprite_second_row :
    bytesAre (unitSprite (grid 128 128 [(pixKey 0 16, 2)]) 69) [0, 0, 0, 0, 0, 0, 0, 0x80] = true := by decide

/-- Pixel (64, 70) = 6 is tile 136, lower band, byte 7, 0x20 (95_test_vectors.md L3-P2). -/
theorem test_unitTile_masked :
    bytesAre (unitTile (grid 128 128 [(pixKey 64 70, 6)]) 272) [0, 0, 0, 0, 0, 0, 0, 0x20] = true := by decide

/-! ### START (95_test_vectors.md 2.5) -/

theorem test_startTile_not_multiple :
    nextIs (exec .startTile (grid 2050 8 [])) (errorIs 0b00#2 2 256 256) = true := by decide
theorem test_startTile_255 : nextIs (exec .startTile (grid 2040 8 [])) (errorIs 0b00#2 2 256 255) = true := by decide
theorem test_startPal_33 :
    nextIs (exec .startPal { ready [] with inN := 33 }) (errorIs 0b01#2 2 32 33) = true := by decide
theorem test_startPal_busy :
    nextIs (exec .startPal (donePal [])) (fun t => decide (t.phase = .busy ∧ t.unitCtr = 0 ∧ t.out = [])) = true := by
  decide
theorem test_startSpr_not_multiple :
    nextIs (exec .startSpr (grid 128 136 [])) (errorIs 0b10#2 2 64 64) = true := by decide
theorem test_startSpr_65 : nextIs (exec .startSpr (grid 1040 16 [])) (errorIs 0b10#2 2 64 65) = true := by decide
theorem test_illegal_before_unpaletted :
    nextIs (step (State.reset.withFetchWord 8 3)) (errorIs 0b11#2 4 0 0) = true := by decide
theorem test_unpaletted_before_size :
    nextIs (step (State.reset.withFetchWord 8 0)) (errorIs 0b00#2 1 0 0) = true := by decide
theorem test_start_while_busy : faultIs (exec .startSpr (busy 0b00#2 [])) .startWhileBusy = true := by decide

/-! ### The other moves (95_test_vectors.md 2.6, section 3) -/

theorem test_step_last_palette_unit :
    nextIs (step (lastPal [.step .accept]))
      (fun t => decide (t.phase = .done ∧ t.unitCtr = 32 ∧ t.emitted = 32 ∧ t.out.length = 32)) = true := by decide
theorem test_step_refused :
    nextIs (step (busy 0b00#2 [.step (.refuse 5)])) (errorIs 0b00#2 3 0 5) = true := by decide
theorem test_reset_in_run :
    nextIs (step (lastPal [.reset]))
      (fun t => decide (t.phase = .idle ∧ t.mode = 0b00#2 ∧ t.unitCtr = 0 ∧ t.emitted = 0 ∧ t.out.length = 31)) = true := by
  decide
theorem test_read_status :
    nextIs (step (donePal [.read 1])) (fun t => decide (t.hostReads = [2])) = true := by decide
theorem test_read_above_six :
    nextIs (step (donePal [.read 7])) (fun t => decide (t.hostReads = [0])) = true := by decide
theorem test_set_while_busy : faultIs (step (busy 0b00#2 [.set (.width 8)])) .inputChangeWhileBusy = true := by decide

/-! ### Witnesses: for every statement with hypotheses, a state and operands that meet them together -/

theorem ready_memWf (moves : List Move) : (ready moves).memWf := ⟨Memory.nil_wf _, Memory.nil_wf _⟩

theorem ready_inv (moves : List Move) : CoreInv (ready moves) where
  mem := ready_memWf moves
  regs := by constructor <;> simp [ready, State.reset, errNone, errReserved, errNotPaletted, errIllegalMode, errIo,
    errSizeMismatch]
  run := by constructor <;> simp [ready, State.reset]

theorem busy_inv (m : ModeWord) (hm : m ≠ 0b11#2) (moves : List Move) : CoreInv (busy m moves) where
  mem := ready_memWf moves
  regs := by
    constructor <;> simp [busy, ready, State.reset, errNone, errReserved, errNotPaletted, errIllegalMode, errIo,
      errSizeMismatch]
    revert m; decide
  run := by
    constructor <;> simp [busy, ready, State.reset]
    · rcases modeWord_cases m with h | h | h | h
      · subst h; simp [validate, tileCheck, tilesInGrid, Config.tileWord, Config.illegalWord, Config.palWord, Config.tileSize,
          Config.tileCount]
      · subst h; rfl
      · subst h; simp [validate, spriteCheck, spritesInGrid, Config.tileWord, Config.illegalWord, Config.palWord, Config.sprWord,
          Config.spriteSize, Config.spriteCount]
      · exact absurd h hm
    · rfl

theorem lastPal_stream (moves : List Move) (n : Nat) (hn : n ≤ 32) :
    streamOf Config.palWord (lastPal moves) n = .ok (List.replicate n 0) := by
  induction n with
  | zero => rfl
  | succ n ih =>
    have hu : unitOf Config.palWord (lastPal moves) n = .ok [0] := by
      have hn' : n < 32 := hn
      have hp : palRead (lastPal moves) n = .ok ⟨0, 0, 0⟩ := if_pos hn'
      simp only [unitOf, unitPal, hp]
      rfl
    rw [streamOf_succ _ _ _ _ _ (ih (by omega)) hu, List.replicate_succ']

theorem lastPal_inv (moves : List Move) : CoreInv (lastPal moves) where
  mem := ready_memWf moves
  regs := by
    constructor <;> simp [lastPal, ready, State.reset, errNone, errReserved, errNotPaletted, errIllegalMode, errIo,
      errSizeMismatch]
  run := {
    validated := fun _ => rfl
    stream := fun _ => lastPal_stream moves 31 (by decide)
    counted := fun _ => rfl
    file := fun _ => rfl }

theorem donePal_inv (moves : List Move) : CoreInv (donePal moves) where
  mem := ready_memWf moves
  regs := by
    constructor <;> simp [donePal, ready, State.reset, errNone, errReserved, errNotPaletted, errIllegalMode, errIo,
      errSizeMismatch]
  run := by constructor <;> simp [donePal, ready, State.reset]

theorem witness_StepKeepsInvariant :
    CoreInv (busy 0b00#2 [.step .accept]) ∧ nextIs (step (busy 0b00#2 [.step .accept])) (fun _ => true) = true :=
  ⟨busy_inv _ (by decide) _, by decide⟩

theorem witness_DutifulStepNeverFaults : CoreInv (busy 0b10#2 [.step .accept]) ∧ keepsDuties (busy 0b10#2 [.step .accept]) := by
  refine ⟨busy_inv _ (by decide) _, ?_⟩
  intro a rest h
  simp only [busy, ready, List.cons.injEq] at h
  obtain ⟨rfl, rfl⟩ := h
  simp [breaksDuty]

theorem witness_DutyBreachHasNoMove :
    (busy 0b01#2 []).phase = .busy ∧ errReserved (busy 0b01#2 []).errCode = false
      ∧ (busy 0b01#2 [.write 6 3]).agenda = [.write 6 3]
      ∧ (busy 0b01#2 [.set (.width 8)]).agenda = [.set (.width 8)] := by decide

theorem witness_ReservedErrCodeFaults :
    5 ≤ ({ ready [] with errCode := 5 } : State).errCode.toNat
      ∧ (∀ rest, ({ ready [] with errCode := 5 } : State).agenda ≠ .reset :: rest)
      ∧ ({ ready [.reset] with errCode := 7 } : State).agenda = [.reset] := by simp [ready]

theorem witness_DecodeAndEncodeAgree :
    Instr.startSpr.wf = true ∧ decodeCmd 2#32 = .ok .startSpr ∧ decodeCmd 7#32 = .error .illegalModeWord
      ∧ 2 ≤ 2 ∧ decodeTableWord 2 1 = some .startPal := by decide

theorem witness_StepRunsDecodedCommand :
    errReserved (ready [.write 6 1]).errCode = false ∧ (ready [.write 6 1]).agenda = [.write 6 1]
      ∧ decodeCmd 1#32 = .ok .startPal ∧ decodeTableWord 8 2 = some .startSpr := by decide

theorem witness_CmdHighBitsAreIgnored :
    (0xFFFFFFFD#32).getLsbD 0 = (1#32).getLsbD 0 ∧ (0xFFFFFFFD#32).getLsbD 1 = (1#32).getLsbD 1 := by decide

theorem witness_StartTileAdmitsValidGrid :
    (ready []).phase ≠ .busy ∧ (ready []).inPaletted = true ∧ (ready []).inW.toNat % 8 = 0 ∧ (ready []).inH.toNat % 8 = 0
      ∧ ((ready []).inW.toNat / 8) * ((ready []).inH.toNat / 8) = 256 := by decide

theorem witness_StartPalAdmitsThirtyTwoEntries :
    (ready []).phase ≠ .busy ∧ (ready []).inPaletted = true ∧ (ready []).inN.toNat = 32 := by decide

theorem witness_StartSprAdmitsValidGrid :
    (ready []).phase ≠ .busy ∧ (ready []).inPaletted = true ∧ (ready []).inW.toNat % 16 = 0
      ∧ (ready []).inH.toNat % 16 = 0 ∧ ((ready []).inW.toNat / 16) * ((ready []).inH.toNat / 16) = 64 := by decide

theorem witness_PaletteLengthDecidesStartPal :
    ((grid 0 0 []).phase ≠ .busy ∧ (grid 0 0 []).inPaletted = true ∧ (grid 0 0 []).inN.toNat ≠ 32)
      ∧ (ready []).inN.toNat = 32 := by decide

theorem witness_TileCountDecidesStartTile :
    ((grid 2050 8 []).phase ≠ .busy ∧ (grid 2050 8 []).inPaletted = true ∧ (grid 2050 8 []).inW.toNat % 8 ≠ 0)
      ∧ ((grid 8 2048 []).inW = 8 ∧ (grid 8 2048 []).inH = 2048)
      ∧ ((grid 2048 8 []).inW.toNat / 8) * ((grid 2048 8 []).inH.toNat / 8) = 256 := by decide

theorem witness_SpriteCountDecidesStartSpr :
    ((grid 128 136 []).phase ≠ .busy ∧ (grid 128 136 []).inPaletted = true ∧ (grid 128 136 []).inH.toNat % 16 ≠ 0)
      ∧ ((grid 1024 16 []).inW = 1024 ∧ (grid 1024 16 []).inH = 16)
      ∧ ((grid 1024 16 []).inW.toNat / 16) * ((grid 1024 16 []).inH.toNat / 16) = 64 := by decide

theorem witness_UnpalettedImageRaisesInEveryMode :
    State.reset.phase ≠ .busy ∧ State.reset.inPaletted = false := by decide

theorem witness_BothFlagsRaiseIllegalMode :
    errReserved (ready [.write 6 7]).errCode = false ∧ (ready [.write 6 7]).phase ≠ .busy
      ∧ (ready [.write 6 7]).agenda = [.write 6 7] ∧ modeWordOf 7#32 = 0b11#2 := by decide

theorem witness_StartReportsFirstFailingCheck :
    (errReserved (ready [.write 6 0]).errCode = false ∧ (ready [.write 6 0]).phase ≠ .busy
        ∧ (ready [.write 6 0]).agenda = [.write 6 0])
      ∧ (nextIs (step (busy 0b00#2 [.step (.refuse 9)])) (fun t => decide (t.errCode = 3)) = true
        ∧ (busy 0b00#2 []).errCode ≠ 3) := by decide

theorem witness_StartFrame :
    nextIs (exec .startTile (ready [])) (fun _ => true) = true ∧ nextIs (exec .startPal (ready [])) (fun _ => true) = true
      ∧ nextIs (exec .startSpr (ready [])) (fun _ => true) = true := by decide

theorem witness_EveryRunStartsAfresh :
    (ready []).phase ≠ .busy ∧ (donePal []).phase ≠ .busy ∧ SameInputs (ready []) (donePal []) :=
  ⟨by decide, by decide, rfl, rfl, rfl, rfl, rfl, rfl⟩

theorem witness_PaletteModeIgnoresGrid : (donePal []).phase ≠ .busy := by decide
theorem witness_TileModeIgnoresPalette : (ready []).phase ≠ .busy := by decide
theorem witness_SpriteModeIgnoresPalette : State.reset.phase ≠ .busy := by decide

theorem witness_PixelReadsStayInTheGrid :
    ((-1 : Int) < 0 ∧ (ready []).inW.toNat ≤ (128 : Int)) ∧ ((0 : Int) ≤ 127 ∧ (127 : Int) < (ready []).inW.toNat)
      ∧ validate 0b00#2 (ready []) = .ok () ∧ totalUnits 0b00#2 = some 512 ∧ 511 < 512 :=
  ⟨by decide, by decide, rfl, rfl, by decide⟩

/-- The two grids hold 5 and 1 at one point and are equal elsewhere. -/
theorem witness_HighIndexBitsNeverReachTheOutput : ∀ k,
    (Memory.get pixUnset [(pixKey 7 7, 5)] k).extractLsb' 0 2
      = (Memory.get pixUnset (grid 8 8 [(pixKey 7 7, 1)]).pix k).extractLsb' 0 2 := by
  intro k
  by_cases h : pixKey 7 7 = k <;> simp [Memory.get, grid, h]

theorem witness_LowChannelBitsNeverReachTheOutput :
    (0x3F : Byte).extractLsb' 5 3 = (0x20 : Byte).extractLsb' 5 3
      ∧ (0xFF : Byte).extractLsb' 5 3 = (0xE0 : Byte).extractLsb' 5 3
      ∧ (0xBF : Byte).extractLsb' 6 2 = (0x80 : Byte).extractLsb' 6 2 := by decide

theorem witness_SetPixelReadsBack :
    (ready [.set (.pixAt 127 127 3)]).memWf ∧ errReserved (ready [.set (.pixAt 127 127 3)]).errCode = false
      ∧ (ready [.set (.pixAt 127 127 3)]).phase ≠ .busy
      ∧ (ready [.set (.pixAt 127 127 3)]).agenda = [.set (.pixAt 127 127 3)]
      ∧ (127#16).toNat < (ready []).inW.toNat ∧ (127#16).toNat < (ready []).inH.toNat :=
  ⟨ready_memWf _, by decide, by decide, by decide, by decide, by decide⟩

theorem witness_SetPaletteEntryReadsBack :
    (ready [.set (.paltAt 31 ⟨1, 2, 3⟩)]).memWf ∧ errReserved (ready [.set (.paltAt 31 ⟨1, 2, 3⟩)]).errCode = false
      ∧ (ready [.set (.paltAt 31 ⟨1, 2, 3⟩)]).phase ≠ .busy
      ∧ (ready [.set (.paltAt 31 ⟨1, 2, 3⟩)]).agenda = [.set (.paltAt 31 ⟨1, 2, 3⟩)]
      ∧ (31#16).toNat < (ready []).inN.toNat :=
  ⟨ready_memWf _, by decide, by decide, by decide, by decide⟩

theorem witness_SetSizesTakeEffect :
    errReserved (ready []).errCode = false ∧ (ready []).phase ≠ .busy
      ∧ (ready [.set (.paletted false)]).agenda = [.set (.paletted false)]
      ∧ (ready [.set (.width 0xFFFF)]).agenda = [.set (.width 0xFFFF)]
      ∧ (ready [.set (.height 0)]).agenda = [.set (.height 0)]
      ∧ (ready [.set (.paletteLen 33)]).agenda = [.set (.paletteLen 33)] := by decide

theorem witness_SetWholeSpacesTakeEffect :
    errReserved (ready []).errCode = false ∧ (ready []).phase ≠ .busy
      ∧ ([((0 : BitVec 16), (0 : BitVec 16)), (127, 127)]).Nodup
      ∧ (ready [.set (.pixAll [(0, 0, 1), (127, 127, 3)])]).agenda = [.set (.pixAll [(0, 0, 1), (127, 127, 3)])]
      ∧ (ready [.set (.paltAll [⟨1, 2, 3⟩])]).agenda = [.set (.paltAll [⟨1, 2, 3⟩])]
      ∧ 0 < (ready []).inN.toNat ∧ 31 < (ready []).inN.toNat := by decide

theorem witness_BandByteBits :
    7 ≤ 7 ∧ 7 < (grid 8 4 []).inW.toNat ∧ 3 ≤ 3 ∧ 3 < (grid 8 4 []).inH.toNat := by decide

theorem witness_BandOfConstantRegion :
    7 ≤ 7 ∧ 7 < (grid 8 4 []).inW.toNat ∧ 3 ≤ 3 ∧ 3 < (grid 8 4 []).inH.toNat
      ∧ ∀ c r : Nat, c < 8 → r < 4 → samplePixel (grid 8 4 []) ((7 : Int) - c) ((3 : Int) - r) = .ok 0 := by
  refine ⟨by decide, by decide, by decide, by decide, ?_⟩
  intro c r hc hr
  unfold samplePixel pixRead
  rw [if_pos]
  · rfl
  · simp only [grid]
    refine ⟨by omega, ?_, by omega, ?_⟩
    · show (7 : Int) - c < 8
      omega
    · show (3 : Int) - r < 4
      omega

theorem witness_BandReadsInRangeExactly :
    ¬ (7 ≤ 6 ∧ 6 < (grid 8 4 []).inW.toNat ∧ 3 ≤ 3 ∧ 3 < (grid 8 4 []).inH.toNat)
      ∧ ¬ (7 ≤ 8 ∧ 8 < (grid 8 4 []).inW.toNat ∧ 3 ≤ 3 ∧ 3 < (grid 8 4 []).inH.toNat) := by decide

theorem witness_TileImageIsRasterOfTiles : validate 0b00#2 (grid 2048 8 []) = .ok () := rfl
theorem witness_SpriteImageIsRasterOfSprites : validate 0b10#2 (grid 1024 16 []) = .ok () := rfl

theorem witness_TilePixelToByteMap :
    validate 0b00#2 (grid 8 2048 []) = .ok () ∧ 7 < (grid 8 2048 []).inW.toNat ∧ 2047 < (grid 8 2048 []).inH.toNat
      ∧ 4095 < 4096 ∧ 3 < 4 := ⟨rfl, by decide, by decide, by decide, by decide⟩

theorem witness_SpritePixelToByteMap :
    validate 0b10#2 (ready []) = .ok () ∧ 127 < (ready []).inW.toNat ∧ 127 < (ready []).inH.toNat :=
  ⟨rfl, by decide, by decide⟩

theorem witness_OutputPositions :
    validate 0b01#2 (ready []) = .ok () ∧ validate 0b00#2 (ready []) = .ok () ∧ validate 0b10#2 (ready []) = .ok ()
      ∧ CoreInv (lastPal [.step .accept]) ∧ (lastPal [.step .accept]).phase = .busy
      ∧ nextIs (step (lastPal [.step .accept])) (fun t => decide (t.phase = .done)) = true :=
  ⟨rfl, rfl, rfl, lastPal_inv _, rfl, by decide⟩

theorem witness_UnitsDependOnInputsAlone : SameInputs (ready []) (lastPal []) := ⟨rfl, rfl, rfl, rfl, rfl, rfl⟩

theorem witness_AcceptedStepEffect :
    CoreInv (lastPal [.step .accept]) ∧ (lastPal [.step .accept]).phase = .busy
      ∧ (lastPal [.step .accept]).agenda = [.step .accept] := ⟨lastPal_inv _, rfl, rfl⟩

theorem witness_RefusedStepAborts :
    CoreInv (lastPal [.step (.refuse 1)]) ∧ (lastPal [.step (.refuse 1)]).phase = .busy
      ∧ (lastPal [.step (.refuse 1)]).agenda = [.step (.refuse 1)] := ⟨lastPal_inv _, rfl, rfl⟩

theorem witness_CompletedRunHoldsTheImage :
    CoreInv (lastPal [.step .accept]) ∧ (lastPal [.step .accept]).phase = .busy
      ∧ nextIs (step (lastPal [.step .accept])) (fun t => decide (t.phase = .done)) = true :=
  ⟨lastPal_inv _, rfl, by decide⟩

theorem witness_BusyStreamIsPrefixOfImage : CoreInv (lastPal []) ∧ (lastPal []).phase = .busy := ⟨lastPal_inv _, rfl⟩

theorem witness_QuiescentCoreChangesNothing :
    ((ready [.step .accept]).phase = .idle ∧ errReserved (ready [.step .accept]).errCode = false
        ∧ (ready [.step .accept]).agenda = [.step .accept])
      ∧ ((donePal []).phase = .done ∧ (donePal []).agenda = [])
      ∧ CoreInv (busy 0b01#2 [.step .accept]) ∧ (busy 0b01#2 [.step .accept]).phase = .busy
      ∧ (busy 0b01#2 [.step .accept]).agenda = [.step .accept] :=
  ⟨by decide, by decide, busy_inv _ (by decide) _, rfl, rfl⟩

theorem witness_PhaseTransitions :
    (CoreInv (ready [.write 6 1]) ∧ (ready [.write 6 1]).agenda = [.write 6 1]
        ∧ nextIs (step (ready [.write 6 1])) (fun t => decide (t.phase = .busy)) = true)
      ∧ (CoreInv (busy 0b10#2 [.step .accept]) ∧ (busy 0b10#2 [.step .accept]).phase = .busy
        ∧ (busy 0b10#2 [.step .accept]).agenda = [.step .accept]
        ∧ totalUnits (busy 0b10#2 []).mode ≠ some ((busy 0b10#2 []).unitCtr.toNat + 1)) :=
  ⟨⟨ready_inv _, rfl, by decide⟩, busy_inv _ (by decide) _, rfl, rfl, by decide⟩

theorem witness_OnlyStartAndResetWriteMode :
    nextIs (step (ready [.write 6 2])) (fun t => decide (t.mode ≠ (ready [.write 6 2]).mode)) = true
      ∧ (ready [.write 6 2]).agenda = [.write 6 2]
      ∧ nextIs (step (donePal [.reset])) (fun t => decide (t.mode ≠ (donePal [.reset]).mode)) = true := by decide

theorem witness_InputsStableDuringARun :
    ∃ t, step (ready [.set (.width 8)]) = .next t ∧ ¬ (SameInputs (ready [.set (.width 8)]) t
      ∧ SameSpaces (ready [.set (.width 8)]) t) :=
  ⟨_, rfl, fun h => absurd h.1.inW (by decide)⟩

theorem witness_StreamIsAppendOnly :
    (nextIs (step (lastPal [.step .accept])) (fun _ => true) = true
        ∧ ∀ v rest, (lastPal [.step .accept]).agenda ≠ .write 6 v :: rest)
      ∧ (donePal [.write 6 0]).agenda = [.write 6 0]
      ∧ nextIs (step (donePal [.write 6 0])) (fun _ => true) = true :=
  ⟨⟨by decide, by simp [lastPal, ready]⟩, rfl, by decide⟩

theorem witness_ErrorAndDoneAreHeld :
    (donePal [.read 1]).phase = .done ∧ nextIs (step (donePal [.read 1])) (fun _ => true) = true
      ∧ (∀ v rest, (donePal [.read 1]).agenda ≠ .write 6 v :: rest)
      ∧ (∀ rest, (donePal [.read 1]).agenda ≠ .reset :: rest) :=
  ⟨rfl, by decide, by simp [donePal, ready], by simp [donePal, ready]⟩

theorem witness_ResetEffect : (lastPal [.reset]).agenda = [.reset] := rfl

theorem witness_RegisterReadReturnsItsValue :
    errReserved (donePal []).errCode = false ∧ (donePal [.read 0]).agenda = [.read 0]
      ∧ (donePal [.read 5]).agenda = [.read 5] ∧ (donePal [.read 6]).agenda = [.read 6]
      ∧ nextIs (step (donePal [.read 0])) (fun t => decide (t.hostReads = [1])) = true
      ∧ nextIs (step (donePal [.read 5])) (fun t => decide (t.hostReads = [32])) = true
      ∧ nextIs (step (donePal [.read 6])) (fun t => decide (t.hostReads = [0])) = true := by decide

theorem witness_ReadOnlyRegistersIgnoreWrites :
    errReserved (busy 0b00#2 [.write 5 1]).errCode = false ∧ 5 ≠ 6
      ∧ (busy 0b00#2 [.write 5 1]).agenda = [.write 5 1] := by decide

theorem witness_RunEndsWithinTotalTurns :
    CoreInv (lastPal ([.accept].map Move.step ++ [.read 1])) ∧ (lastPal []).phase = .busy
      ∧ totalUnits (lastPal []).mode = some 32 ∧ [SinkAnswer.accept].length = 32 - (lastPal []).unitCtr.toNat :=
  ⟨lastPal_inv _, rfl, rfl, rfl⟩

theorem witness_RunFunctionAgreesWithSteps :
    (errReserved (ready []).errCode = false ∧ (ready []).phase ≠ .busy
        ∧ (List.replicate 32 SinkAnswer.accept).length = (totalUnits (modeWordOf 1)).getD 0
        ∧ firstRefusal (List.replicate 32 .accept) = none)
      ∧ ((SinkAnswer.refuse 7 :: List.replicate 31 .accept).length = (totalUnits (modeWordOf 1)).getD 0
        ∧ firstRefusal (.refuse 7 :: List.replicate 31 .accept) = some (0, 7))
      ∧ (([] : List SinkAnswer).length = (totalUnits (modeWordOf 3)).getD 0)
      ∧ validate (modeWordOf 1) (ready []) = .ok ()
      ∧ validate (modeWordOf 3) (ready []) = .error illegalModeReport :=
  ⟨by decide, by decide, by decide, rfl, rfl⟩

theorem witness_SpriteValidGridIsTileValid :
    validate 0b10#2 (grid 16 1024 []) = .ok () ∧ validate 0b00#2 (grid 2048 8 []) = .ok () := ⟨rfl, rfl⟩

end Sys2Proof.Tests
end

section
/-! PROOFS. What a unit, the stream and validation read: the host inputs alone (10_state.md R36). -/

namespace Sys2Proof.Machine

variable {s t : State}

/-! ### One congruence lemma per reader of the inputs -/

theorem pixRead_congr (h : SameInputs s t) (x y : Int) : pixRead s x y = pixRead t x y := by
  simp only [pixRead, h.inW, h.inH, h.pix]

theorem palRead_congr (h : SameInputs s t) (i : Nat) : palRead s i = palRead t i := by
  simp only [palRead, h.inN, h.palt]

theorem enc8x4_congr (h : SameInputs s t) (x y : Nat) : enc8x4 s x y = enc8x4 t x y := by
  simp only [enc8x4, encColumn, samplePixel, pixRead_congr h]

theorem unitOf_congr (h : SameInputs s t) (m : ModeWord) (u : Nat) : unitOf m s u = unitOf m t u := by
  have hpal : unitPal s u = unitPal t u := by simp only [unitPal, palRead_congr h]
  have htile : unitTile s u = unitTile t u := by simp only [unitTile, enc8x4_congr h, h.inW]
  have hspr : unitSprite s u = unitSprite t u := by simp only [unitSprite, enc8x4_congr h, h.inW]
  simp only [unitOf, hpal, htile, hspr]

theorem streamOf_congr (h : SameInputs s t) (m : ModeWord) (n : Nat) : streamOf m s n = streamOf m t n := by
  induction n with
  | zero => rfl
  | succ n ih => simp only [streamOf, ih, unitOf_congr h]

theorem validate_congr (h : SameInputs s t) (m : ModeWord) : validate m s = validate m t := by
  have hpal : palCheck s = palCheck t := by unfold palCheck; rw [h.inN]
  have htile : tileCheck s = tileCheck t := by unfold tileCheck tilesInGrid; rw [h.inW, h.inH]
  have hspr : spriteCheck s = spriteCheck t := by unfold spriteCheck spritesInGrid; rw [h.inW, h.inH]
  unfold validate
  rw [h.inPaletted, hpal, htile, hspr]

/-! ### The state updates that leave every input alone -/

theorem sameInputs_takeMove (rest : List Move) (s : State) : SameInputs s (takeMove rest s) :=
  ⟨rfl, rfl, rfl, rfl, rfl, rfl⟩

@[simp] theorem unitOf_takeMove (m : ModeWord) (rest : List Move) (s : State) (u : Nat) :
    unitOf m (takeMove rest s) u = unitOf m s u :=
  (unitOf_congr (sameInputs_takeMove rest s) m u).symm

theorem sameInputs_acceptUnit (bytes : List Byte) (s : State) : SameInputs s (acceptUnit bytes s) := by
  constructor <;> simp

end Sys2Proof.Machine

open Sys2Proof.Machine

/-- Settles O41: each reader of a unit looks at the inputs only. -/
theorem unitsDependOnInputsAlone : Obligations.UnitsDependOnInputsAlone :=
  fun _ _ h m u => unitOf_congr h m u

end

section
/-! PROOFS. A validated run has every unit below TOTAL(MODE) (41_band_encoder.md R97). -/

namespace Sys2Proof.Machine

theorem unitPal_ok (s : State) (u : Nat) (h : palCheck s = .ok ()) (hu : u < 32) : ∃ l, unitPal s u = .ok l := by
  have hn : u < s.inN.toNat := by rw [(palCheck_ok s).1 h]; exact hu
  exact ⟨_, by rw [unitPal, palRead, if_pos hn]; rfl⟩

/-- In raster order over a grid of w by h cells, cell n lies in the grid. -/
theorem raster_lt {w h n : Nat} (hn : n < w * h) : n % w < w ∧ n / w < h := by
  have hw : 0 < w := Nat.pos_of_lt_mul_right hn
  exact ⟨Nat.mod_lt _ hw, Nat.div_lt_of_lt_mul hn⟩

theorem unitTile_ok (s : State) (u : Nat) (h : tileCheck s = .ok ()) (hu : u < 512) : ∃ l, unitTile s u = .ok l := by
  obtain ⟨hw, hh, hc⟩ := (tileCheck_ok s).1 h
  obtain ⟨hx, hy⟩ := raster_lt (n := u / 2) (hc ▸ by omega : u / 2 < s.inW.toNat / 8 * (s.inH.toNat / 8))
  exact ⟨_, enc8x4_ok s _ _ (by omega) (by simp only [Config.tileSize]; omega) (by omega)
    (by simp only [Config.tileSize]; omega)⟩

/-- Every sub-block of a sprite is a valid reference point of its cell (30_encoding.md R81). -/
theorem spriteOffsets_bounds : ∀ k : Fin 8,
    7 ≤ Config.spriteOffsets[k].1 ∧ Config.spriteOffsets[k].1 < 16
      ∧ 3 ≤ Config.spriteOffsets[k].2 ∧ Config.spriteOffsets[k].2 < 16 := by decide

theorem unitSprite_ok (s : State) (u : Nat) (h : spriteCheck s = .ok ()) (hu : u < 512) :
    ∃ l, unitSprite s u = .ok l := by
  obtain ⟨hw, hh, hc⟩ := (spriteCheck_ok s).1 h
  obtain ⟨hx, hy⟩ := raster_lt (n := u / 8) (hc ▸ by omega : u / 8 < s.inW.toNat / 16 * (s.inH.toNat / 16))
  obtain ⟨hx7, hx16, hy3, hy16⟩ := spriteOffsets_bounds ⟨u % 8, Nat.mod_lt u (by decide)⟩
  simp only [Fin.getElem_fin] at hx7 hx16 hy3 hy16
  exact ⟨_, enc8x4_ok s _ _ (by omega) (by simp only [Config.spriteSize]; omega) (by omega)
    (by simp only [Config.spriteSize]; omega)⟩

theorem unitOf_ok {m : ModeWord} {s : State} {n u : Nat} (hv : validate m s = .ok ())
    (hn : totalUnits m = some n) (hu : u < n) : ∃ l, unitOf m s u = .ok l := by
  obtain ⟨-, ⟨rfl, hc⟩ | ⟨rfl, hc⟩ | ⟨rfl, hc⟩⟩ := validate_ok m s () hv <;> cases hn
  · exact unitPal_ok s u hc hu
  · exact unitTile_ok s u hc hu
  · exact unitSprite_ok s u hc hu

end Sys2Proof.Machine
end

section
/-! PROOFS. One step: the equation of each move, and what a step that gives a next state has done. -/

namespace Sys2Proof.Machine

variable {s t : State} {rest : List Move}

theorem turn_of_agenda {a : Move} (ha : s.agenda = a :: rest) (hr : errReserved s.errCode = false ∨ a = .reset) :
    turn s = makeMove a (takeMove rest s) := by
  rcases hr with hr | rfl <;> simp [turn, resetIsNext, *]

theorem step_cmd {v : Word} (hr : errReserved s.errCode = false) (ha : s.agenda = .write cmdNumber v :: rest) :
    step s = start (modeWordOf v) (takeMove rest s) := by
  rw [step, turn_of_agenda ha (.inl hr), makeMove, hostWrite, if_pos rfl, decodeCmd]
  rcases modeWord_cases (modeWordOf v) with h | h | h | h <;> rw [h] <;> rfl

theorem step_other_write {n : Nat} {v : Word} (hr : errReserved s.errCode = false) (hn : n ≠ cmdNumber)
    (ha : s.agenda = .write n v :: rest) : step s = .next (takeMove rest s) := by
  rw [step, turn_of_agenda ha (.inl hr), makeMove, hostWrite, if_neg hn]

theorem step_set {w : InputWrite} (hr : errReserved s.errCode = false) (hb : s.phase ≠ .busy)
    (ha : s.agenda = .set w :: rest) : step s = .next (applyInput w (takeMove rest s)) := by
  rw [step, turn_of_agenda ha (.inl hr)]
  exact if_neg hb

theorem step_reset (ha : s.agenda = .reset :: rest) : step s = .next (resetCore (takeMove rest s)) := by
  rw [step, turn_of_agenda ha (.inr rfl), makeMove]

theorem step_turn {answer : SinkAnswer} (hr : errReserved s.errCode = false) (ha : s.agenda = .step answer :: rest) :
    step s = coreStep answer (takeMove rest s) := by
  rw [step, turn_of_agenda ha (.inl hr), makeMove]

theorem step_reserved (hr : errReserved s.errCode = true) (ha : ∀ rest, s.agenda ≠ .reset :: rest) :
    step s = .fault .errCodeReserved := by
  have hn : resetIsNext s = false := by
    unfold resetIsNext
    split
    · exact absurd ‹_› (ha _)
    · rfl
  simp [step, turn, hr, hn]

theorem not_errReserved_of_step (h : step s = .next t) (ha : ∀ rest, s.agenda ≠ .reset :: rest) :
    errReserved s.errCode = false := by
  by_contra hr
  rw [step_reserved (by simpa using hr) ha] at h
  cases h

/-- Everything a step that gives a next state can have done. -/
inductive StepResult (s : State) : State → Prop where
  | wait : s.agenda = [] → StepResult s s
  | startFails v rest e : s.agenda = .write cmdNumber v :: rest → s.phase ≠ .busy →
      validate (modeWordOf v) s = .error e → StepResult s (raise e (beginRun (modeWordOf v) (takeMove rest s)))
  | startPasses v rest : s.agenda = .write cmdNumber v :: rest → s.phase ≠ .busy →
      validate (modeWordOf v) s = .ok () → StepResult s (enterBusy (beginRun (modeWordOf v) (takeMove rest s)))
  | otherWrite n v rest : n ≠ cmdNumber → s.agenda = .write n v :: rest → StepResult s (takeMove rest s)
  | read n rest : s.agenda = .read n :: rest → StepResult s (hostRead n (takeMove rest s))
  | set w rest : s.agenda = .set w :: rest → s.phase ≠ .busy → StepResult s (applyInput w (takeMove rest s))
  | reset rest : s.agenda = .reset :: rest → StepResult s (resetCore (takeMove rest s))
  | quiescent answer rest : s.agenda = .step answer :: rest → s.phase ≠ .busy → StepResult s (takeMove rest s)
  | accept l rest : s.agenda = .step .accept :: rest → s.phase = .busy → unitOf s.mode s s.unitCtr.toNat = .ok l →
      StepResult s (acceptUnit l (takeMove rest s))
  | refuse e rest : s.agenda = .step (.refuse e) :: rest → s.phase = .busy →
      StepResult s (raise (ioReport e) (takeMove rest s))

/-- A START that gives a next state was not made while BUSY, and validation decides it (44_sequencer.md R117). -/
theorem start_next {m : ModeWord} (h : start m s = .next t) :
    s.phase ≠ .busy ∧ ((∃ e, validate m s = .error e ∧ t = raise e (beginRun m s))
      ∨ (validate m s = .ok () ∧ t = enterBusy (beginRun m s))) := by
  rcases start_cases m s with ⟨_, hs⟩ | ⟨hb, e, hv, hs⟩ | ⟨hb, hv, hs⟩ <;> rw [hs] at h <;> cases h
  · exact ⟨hb, .inl ⟨e, hv, rfl⟩⟩
  · exact ⟨hb, .inr ⟨hv, rfl⟩⟩

theorem stepResult_of_start {v : Word} (ha : s.agenda = .write cmdNumber v :: rest)
    (h : start (modeWordOf v) (takeMove rest s) = .next t) : StepResult s t := by
  obtain ⟨hb, ⟨e, hv, rfl⟩ | ⟨hv, rfl⟩⟩ := start_next h
  · exact .startFails v rest e ha hb hv
  · exact .startPasses v rest ha hb hv

theorem stepResult_of_coreStep {answer : SinkAnswer} (ha : s.agenda = .step answer :: rest)
    (h : coreStep answer (takeMove rest s) = .next t) : StepResult s t := by
  rcases coreStep_cases answer (takeMove rest s) with ⟨hb, hs⟩ | ⟨_, _, _, hs⟩ | ⟨hb, l, hu, rfl, hs⟩
      | ⟨hb, l, e, _, rfl, hs⟩ <;>
    rw [hs] at h <;> cases h
  · exact .quiescent answer rest ha hb
  · exact .accept l rest ha hb (by simpa using hu)
  · exact .refuse e rest ha hb

theorem stepResult_of_step (h : step s = .next t) : StepResult s t := by
  rcases step_cases s with ⟨_, _, hs⟩ | ⟨ha, hs⟩ | ⟨v, rest, ha, hs⟩ | ⟨n, v, rest, hn, ha, hs⟩ | ⟨n, rest, ha, hs⟩
      | ⟨w, rest, ha, hs⟩ | ⟨rest, ha, hs⟩ | ⟨answer, rest, ha, hs⟩ <;>
    rw [hs] at h
  · cases h
  · cases h; exact .wait ha
  · exact stepResult_of_start ha h
  · cases h; exact .otherWrite n v rest hn ha
  · cases h; exact .read n rest ha
  · unfold setInput at h
    split at h <;> cases h
    exact .set w rest ha ‹_›
  · cases h; exact .reset rest ha
  · exact stepResult_of_coreStep ha h

/-- A CMD write that gives a next state has made a START. -/
theorem start_of_step_cmd {v : Word} (ha : s.agenda = .write cmdNumber v :: rest) (h : step s = .next t) :
    start (modeWordOf v) (takeMove rest s) = .next t := by
  rw [← step_cmd (not_errReserved_of_step h (by simp [ha])) ha, h]

end Sys2Proof.Machine
end

section
/-! PROOFS. The invariant, one lemma per thing a step can do (10_state.md R43). -/

namespace Sys2Proof.Machine

variable {s t : State}

/-! ### What the invariant looks at -/

theorem regInv_congr (h : SameRegs s t) (hs : RegInv s) : RegInv t := by
  obtain ⟨hmode, hphase, hcode, hexp, hact, hemit, hunit⟩ := h
  obtain ⟨idle, busy, done, code_iff, legal, none, plain, io, size⟩ := hs
  simp only [hmode, hphase, hcode, hexp, hact, hemit, hunit] at *
  exact ⟨idle, busy, done, code_iff, legal, none, plain, io, size⟩

theorem runInv_congr (hr : SameRegs s t) (hi : SameInputs s t) (ho : s.out = t.out) (hf : s.hostFile = t.hostFile)
    (hs : RunInv s) : RunInv t where
  validated hb := by
    rw [← hr.mode, ← validate_congr hi]
    exact hs.validated (hr.phase.trans hb)
  stream hb := by
    rw [← hr.mode, ← hr.unitCtr, ← ho, ← streamOf_congr hi]
    exact hs.stream (hr.phase.trans hb)
  counted hb := by
    rw [← ho, ← hr.emitted]
    exact hs.counted (by rwa [hr.phase])
  file hb := by
    rw [← ho, ← hf]
    exact hs.file (by rwa [hr.phase])

theorem coreInv_congr (hr : SameRegs s t) (hi : SameInputs s t) (ho : s.out = t.out) (hf : s.hostFile = t.hostFile)
    (hs : CoreInv s) : CoreInv t where
  mem := by
    obtain ⟨hpix, hpalt⟩ := hs.mem
    exact ⟨hi.pix ▸ hpix, hi.palt ▸ hpalt⟩
  regs := regInv_congr hr hs.regs
  run := runInv_congr hr hi ho hf hs.run

theorem takeMove_inv (rest : List Move) (hs : CoreInv s) : CoreInv (takeMove rest s) :=
  coreInv_congr (s := s) ⟨rfl, rfl, rfl, rfl, rfl, rfl, rfl⟩ (sameInputs_takeMove rest s) rfl rfl hs

theorem hostRead_inv (n : Nat) (hs : CoreInv s) : CoreInv (hostRead n s) :=
  coreInv_congr (s := s) ⟨rfl, rfl, rfl, rfl, rfl, rfl, rfl⟩ ⟨rfl, rfl, rfl, rfl, rfl, rfl⟩ rfl rfl hs

/-! ### RESET and SET -/

theorem reset_regInv : RegInv State.reset := by
  constructor <;> simp [State.reset, errNone, errReserved, errNotPaletted, errIllegalMode, errIo, errSizeMismatch]

/-- An IDLE state promises nothing of its stream. -/
theorem idle_runInv (hp : s.phase = .idle) : RunInv s := by
  constructor <;> simp [hp]

theorem reset_inv (hm : s.memWf) (hr : SameRegs State.reset s) : CoreInv s where
  mem := hm
  regs := regInv_congr hr reset_regInv
  run := idle_runInv hr.phase.symm

theorem resetCore_inv (hs : CoreInv s) : CoreInv (resetCore s) :=
  reset_inv hs.mem ⟨rfl, rfl, rfl, rfl, rfl, rfl, rfl⟩

theorem applyInput_inv (w : InputWrite) (hb : s.phase ≠ .busy) (hs : CoreInv s) : CoreInv (applyInput w s) where
  mem := applyInput_memWf w s hs.mem
  regs := regInv_congr (by constructor <;> simp) hs.regs
  run := {
    validated := by simp [hb]
    stream := by simp [hb]
    counted := by simpa using hs.run.counted
    file := by simpa using hs.run.file }

/-! ### Raising an error -/

/-- The reports the core can raise in a mode (60_exceptions.md R130). -/
inductive Reportable : ModeWord → ErrorReport → Prop where
  | illegalMode m : Reportable m illegalModeReport
  | notPaletted m : Reportable m notPalettedReport
  | palSize n : Reportable Config.palWord (sizeReport 32 n)
  | tileSize n : Reportable Config.tileWord (sizeReport 256 n)
  | sprSize n : Reportable Config.sprWord (sizeReport 64 n)
  | io m e : Reportable m (ioReport e)

theorem reportable_of_validate {m : ModeWord} {e : ErrorReport} (h : validate m s = .error e) : Reportable m e := by
  rcases validate_error m s e h with ⟨_, rfl⟩ | ⟨_, _, rfl⟩ | ⟨rfl, _, _, rfl⟩ | ⟨rfl, _, _, rfl⟩ | ⟨rfl, _, _, rfl⟩
  · exact .illegalMode m
  · exact .notPaletted m
  · exact .palSize _
  · exact .tileSize _
  · exact .sprSize _

theorem Reportable.code_ne_none {m : ModeWord} {e : ErrorReport} (h : Reportable m e) : e.code ≠ errNone := by
  cases h <;> simp [illegalModeReport, notPalettedReport, sizeReport, ioReport, errNone, errNotPaletted,
    errSizeMismatch, errIo, errIllegalMode]

theorem Reportable.code_legal {m : ModeWord} {e : ErrorReport} (h : Reportable m e) : errReserved e.code = false := by
  cases h <;> rfl

theorem Reportable.expected_zero {m : ModeWord} {e : ErrorReport} (h : Reportable m e) (hc : e.code ≠ errSizeMismatch) :
    e.expected = 0 := by
  cases h with
  | illegalMode | notPaletted | io => rfl
  | palSize | tileSize | sprSize => exact absurd rfl hc

theorem Reportable.actual_zero {m : ModeWord} {e : ErrorReport} (h : Reportable m e)
    (hc : e.code = errNotPaletted ∨ e.code = errIllegalMode) : e.actual = 0 := by
  cases h with
  | illegalMode | notPaletted => rfl
  | palSize | tileSize | sprSize | io =>
    simp [sizeReport, ioReport, errNotPaletted, errSizeMismatch, errIo, errIllegalMode] at hc

theorem Reportable.size_expected {m : ModeWord} {e : ErrorReport} (h : Reportable m e) (hc : e.code = errSizeMismatch) :
    (m = Config.palWord ∧ e.expected = 32) ∨ (m = Config.tileWord ∧ e.expected = 256)
      ∨ (m = Config.sprWord ∧ e.expected = 64) := by
  cases h with
  | palSize n => exact .inl ⟨rfl, rfl⟩
  | tileSize n => exact .inr (.inl ⟨rfl, rfl⟩)
  | sprSize n => exact .inr (.inr ⟨rfl, rfl⟩)
  | illegalMode | notPaletted | io =>
    simp [illegalModeReport, notPalettedReport, ioReport, errNotPaletted, errSizeMismatch, errIo, errIllegalMode] at hc

/-- Each report keeps the rules of its ERR_CODE (10_state.md R24, R25, R26). -/
theorem raise_regInv {e : ErrorReport} (h : Reportable s.mode e) : RegInv (raise e s) where
  idle := by simp
  busy := by simp
  done := by simp
  errCode_iff := by simpa using h.code_ne_none
  errCode_legal := h.code_legal
  report_none hc := absurd hc h.code_ne_none
  report_plain hc :=
    ⟨h.expected_zero (by rcases hc with hc | hc <;> exact ne_of_eq_of_ne hc (by decide)), h.actual_zero hc⟩
  report_io hc := h.expected_zero (ne_of_eq_of_ne hc (by decide))
  report_size hc := h.size_expected hc

theorem raise_inv {e : ErrorReport} (h : Reportable s.mode e) (hm : s.memWf) (hc : s.out.length = s.emitted.toNat) :
    CoreInv (raise e s) where
  mem := hm
  regs := raise_regInv h
  run := by constructor <;> simp [hc]

/-! ### START -/

theorem startFails_inv {m : ModeWord} {e : ErrorReport} (hv : validate m s = .error e) (hs : CoreInv s) :
    CoreInv (raise e (beginRun m s)) :=
  raise_inv (reportable_of_validate hv) hs.mem rfl

theorem totalUnits_of_validate {m : ModeWord} (hv : validate m s = .ok ()) : ∃ n, totalUnits m = some n ∧ 0 < n := by
  obtain ⟨-, ⟨rfl, -⟩ | ⟨rfl, -⟩ | ⟨rfl, -⟩⟩ := validate_ok m s () hv <;> simp

theorem startPasses_inv {m : ModeWord} (hv : validate m s = .ok ()) (hs : CoreInv s) :
    CoreInv (enterBusy (beginRun m s)) where
  mem := hs.mem
  regs := by
    have hn := totalUnits_of_validate hv
    constructor <;> simp [hn, errNone, errReserved, errNotPaletted, errSizeMismatch, errIo, errIllegalMode]
  run := {
    validated := fun _ => hv
    stream := fun _ => rfl
    counted := fun _ => rfl
    file := fun _ => rfl }

/-! ### An accepted unit -/

/-- No counter of a run wraps: the widths of UNIT and EMITTED hold TOTAL and the image's bytes (10_state.md R27, R34,
R35). -/
theorem totalUnits_bounds {m : ModeWord} {n : Nat} (h : totalUnits m = some n) :
    n ≤ 512 ∧ n * bytesPerUnit m ≤ 4096 := by
  rcases modeWord_cases m with rfl | rfl | rfl | rfl <;> cases h <;> decide

/-- UNIT and EMITTED after an accepted unit, as numbers, with the TOTAL they stay within. -/
theorem acceptUnit_counters {l : List Byte} (hs : CoreInv s) (hb : s.phase = .busy)
    (hu : unitOf s.mode s s.unitCtr.toNat = .ok l) :
    ∃ n, totalUnits s.mode = some n ∧ s.unitCtr.toNat + 1 ≤ n
      ∧ (acceptUnit l s).unitCtr.toNat = s.unitCtr.toNat + 1
      ∧ (acceptUnit l s).emitted.toNat = s.emitted.toNat + l.length
      ∧ (acceptUnit l s).emitted.toNat = (s.unitCtr.toNat + 1) * bytesPerUnit s.mode := by
  obtain ⟨n, hn, hlt, hemit⟩ := hs.regs.busy hb
  obtain ⟨hn512, hbytes⟩ := totalUnits_bounds hn
  have hlen : l.length = bytesPerUnit s.mode := unitOf_length _ _ _ _ hu
  have hnext : (s.unitCtr.toNat + 1) * bytesPerUnit s.mode = s.emitted.toNat + l.length := by
    rw [hemit, hlen, Nat.succ_mul]
  have hle : (s.unitCtr.toNat + 1) * bytesPerUnit s.mode ≤ n * bytesPerUnit s.mode := Nat.mul_le_mul_right _ hlt
  have hunit : (acceptUnit l s).unitCtr.toNat = s.unitCtr.toNat + 1 := by
    rw [acceptUnit_unitCtr]
    bv_omega
  have hemitted : (acceptUnit l s).emitted.toNat = s.emitted.toNat + l.length := by
    rw [acceptUnit_emitted, BitVec.toNat_add, BitVec.toNat_ofNat]
    omega
  exact ⟨n, hn, hlt, hunit, hemitted, hemitted.trans hnext.symm⟩

theorem acceptUnit_phase_of_busy {l : List Byte} (hs : CoreInv s) (hb : s.phase = .busy)
    (hu : unitOf s.mode s s.unitCtr.toNat = .ok l) :
    (acceptUnit l s).phase = if totalUnits s.mode = some (s.unitCtr.toNat + 1) then .done else .busy := by
  obtain ⟨-, -, -, hunit, -, -⟩ := acceptUnit_counters hs hb hu
  rw [acceptUnit_phase, ← acceptUnit_unitCtr l s, hunit, hb]
  simp only [eq_comm]

theorem errCode_of_busy (hs : CoreInv s) (hb : s.phase = .busy) : s.errCode = errNone := by
  by_contra hc
  have he := hs.regs.errCode_iff.1 hc
  rw [hb] at he
  cases he

theorem acceptUnit_regInv {l : List Byte} (hs : CoreInv s) (hb : s.phase = .busy)
    (hu : unitOf s.mode s s.unitCtr.toNat = .ok l) : RegInv (acceptUnit l s) := by
  obtain ⟨n, hn, hlt, hunit, -, hemit⟩ := acceptUnit_counters hs hb hu
  have hphase := acceptUnit_phase_of_busy hs hb hu
  simp only [hn, Option.some_inj] at hphase
  have hcode := errCode_of_busy hs hb
  exact {
    idle := by rw [hphase]; split <;> simp
    busy := by
      rw [hphase]
      split
      · simp
      · exact fun _ => ⟨n, by simpa using hn, by omega, by rw [hunit, hemit, acceptUnit_mode]⟩
    done := by
      rw [hphase]
      split
      · exact fun _ => ⟨n, by simpa using hn, by omega, by rw [hemit, acceptUnit_mode]; simp [*]⟩
      · simp
    errCode_iff := by rw [hphase, acceptUnit_errCode, hcode]; split <;> simp
    errCode_legal := by simpa using hs.regs.errCode_legal
    report_none := by simpa using hs.regs.report_none
    report_plain := by simpa using hs.regs.report_plain
    report_io := by simpa using hs.regs.report_io
    report_size := by simpa using hs.regs.report_size }

theorem acceptUnit_runInv {l : List Byte} (hs : CoreInv s) (hb : s.phase = .busy)
    (hu : unitOf s.mode s s.unitCtr.toNat = .ok l) : RunInv (acceptUnit l s) := by
  obtain ⟨-, -, -, hunit, hemit, -⟩ := acceptUnit_counters hs hb hu
  have hinputs := sameInputs_acceptUnit l s
  exact {
    validated := fun _ => by
      rw [acceptUnit_mode, ← validate_congr hinputs]
      exact hs.run.validated hb
    stream := fun _ => by
      rw [acceptUnit_mode, hunit, acceptUnit_out, ← streamOf_congr hinputs]
      exact streamOf_succ _ _ _ _ _ (hs.run.stream hb) hu
    counted := fun _ => by
      rw [acceptUnit_out, List.length_append, hs.run.counted (by simp [hb]), hemit]
    file := fun _ => by
      rw [acceptUnit_hostFile, acceptUnit_out, hs.run.file (.inl hb)] }

theorem acceptUnit_inv {l : List Byte} (hs : CoreInv s) (hb : s.phase = .busy)
    (hu : unitOf s.mode s s.unitCtr.toNat = .ok l) : CoreInv (acceptUnit l s) where
  mem := by simpa [State.memWf] using hs.mem
  regs := acceptUnit_regInv hs hb hu
  run := acceptUnit_runInv hs hb hu

/-! ### One step -/

theorem step_inv (hs : CoreInv s) (h : step s = .next t) : CoreInv t := by
  cases stepResult_of_step h with
  | wait => exact hs
  | startFails v rest e _ _ hv => exact startFails_inv hv (takeMove_inv rest hs)
  | startPasses v rest _ _ hv => exact startPasses_inv hv (takeMove_inv rest hs)
  | otherWrite n v rest => exact takeMove_inv rest hs
  | read n rest => exact hostRead_inv n (takeMove_inv rest hs)
  | set w rest _ hb => exact applyInput_inv w hb (takeMove_inv rest hs)
  | reset rest => exact resetCore_inv (takeMove_inv rest hs)
  | quiescent answer rest => exact takeMove_inv rest hs
  | accept l rest _ hb hu => exact acceptUnit_inv (takeMove_inv rest hs) hb (by simpa using hu)
  | refuse e rest _ hb => exact raise_inv (.io _ e) hs.mem (hs.run.counted (by simp [hb]))

end Sys2Proof.Machine

open Sys2Proof.Machine

/-- Settles O3: each thing a step can do keeps the invariant. -/
theorem stepKeepsInvariant : Obligations.StepKeepsInvariant :=
  fun _ _ hs h => step_inv hs h

/-- Settles O2: the registers are at their reset values and both input spaces are empty. -/
theorem resetMeetsInvariant : Obligations.ResetMeetsInvariant :=
  reset_inv ⟨Memory.nil_wf _, Memory.nil_wf _⟩ ⟨rfl, rfl, rfl, rfl, rfl, rfl, rfl⟩

end

section
/-! PROOFS. What a step does to PHASE, to MODE and to the registers a host write or a reset reaches. -/

namespace Sys2Proof.Machine

variable {s t : State} {rest : List Move}

theorem mode_of_start {m : ModeWord} (h : start m s = .next t) : t.mode = m := by
  obtain ⟨_, ⟨_, _, rfl⟩ | ⟨_, rfl⟩⟩ := start_next h <;> rfl

/-- A START leads to BUSY or ERROR, as validation says (10_state.md R23). -/
theorem phase_of_start {m : ModeWord} (h : start m s = .next t) :
    (t.phase = .busy ↔ validate m s = .ok ()) ∧ (t.phase = .error ↔ ∃ e, validate m s = .error e) := by
  obtain ⟨_, ⟨e, hv, rfl⟩ | ⟨hv, rfl⟩⟩ := start_next h <;> simp [hv]

/-- While BUSY the current unit can be computed (41_band_encoder.md R97). -/
theorem unitOf_ok_of_busy (hs : CoreInv s) (hb : s.phase = .busy) : ∃ l, unitOf s.mode s s.unitCtr.toNat = .ok l := by
  obtain ⟨n, hn, hlt, -⟩ := hs.regs.busy hb
  exact unitOf_ok (hs.run.validated hb) hn hlt

theorem step_accept (hs : CoreInv s) (hb : s.phase = .busy) (ha : s.agenda = .step .accept :: rest) :
    ∃ l, unitOf s.mode s s.unitCtr.toNat = .ok l ∧ step s = .next (acceptUnit l (takeMove rest s)) := by
  obtain ⟨l, hu⟩ := unitOf_ok_of_busy hs hb
  refine ⟨l, hu, ?_⟩
  rw [step_turn hs.regs.errCode_legal ha, coreStep, if_pos (by exact hb)]
  simp only [takeMove_mode, takeMove_unitCtr, unitOf_takeMove, hu]

/-- An accepted turn ends the run exactly when its unit is the last (44_sequencer.md R120). -/
theorem phase_of_accept {l : List Byte} (hs : CoreInv s) (hb : s.phase = .busy)
    (hu : unitOf s.mode s s.unitCtr.toNat = .ok l) :
    (acceptUnit l (takeMove rest s)).phase
      = if totalUnits s.mode = some (s.unitCtr.toNat + 1) then .done else .busy :=
  acceptUnit_phase_of_busy (takeMove_inv rest hs) hb (by simpa using hu)

end Sys2Proof.Machine

open Sys2Proof.Machine

/-- Settles O47: phase by phase over what a step can do; a validated run has the unit an accepted turn emits (R97). -/
theorem phaseTransitions : Obligations.PhaseTransitions := by
  unfold Obligations.PhaseTransitions
  refine ⟨fun s t hs h => ?_, fun s t v rest hs ha h => ?_, fun s rest hs hb ha hlast => ?_⟩
  · cases stepResult_of_step h with
    | wait | otherWrite | read | quiescent => exact .inl rfl
    | set w rest => exact .inl (applyInput_phase w _)
    | startFails v rest e ha hb hv => exact .inr (.inl ⟨v, rest, ha, hb, .inr ⟨⟨e, hv⟩, rfl⟩⟩)
    | startPasses v rest ha hb hv => exact .inr (.inl ⟨v, rest, ha, hb, .inl ⟨hv, rfl⟩⟩)
    | accept l rest ha hb hu =>
      have hphase := phase_of_accept (rest := rest) hs hb hu
      by_cases hlast : totalUnits s.mode = some (s.unitCtr.toNat + 1)
      · exact .inr (.inr (.inl ⟨rest, ha, hb, by rw [hphase, if_pos hlast], hlast⟩))
      · exact .inl (by rw [hphase, if_neg hlast, hb])
    | refuse e rest ha hb => exact .inr (.inr (.inr (.inl ⟨e, rest, ha, hb, rfl⟩)))
    | reset rest ha => exact .inr (.inr (.inr (.inr ⟨rest, ha, rfl⟩)))
  · have hstart := start_of_step_cmd ha h
    exact ⟨(start_next hstart).1, phase_of_start (s := takeMove rest s) hstart⟩
  · obtain ⟨l, hu, hstep⟩ := step_accept hs hb ha
    exact ⟨_, hstep, by rw [phase_of_accept hs hb hu, if_neg hlast]⟩

/-- Settles O48: of all a step can do, only a START and a reset write MODE. -/
theorem onlyStartAndResetWriteMode : Obligations.OnlyStartAndResetWriteMode := by
  unfold Obligations.OnlyStartAndResetWriteMode
  refine ⟨fun s t h hm => ?_, fun s t v rest ha h => mode_of_start (start_of_step_cmd ha h)⟩
  cases stepResult_of_step h with
  | startFails v rest e ha => exact .inl ⟨v, rest, ha, rfl⟩
  | startPasses v rest ha => exact .inl ⟨v, rest, ha, rfl⟩
  | reset rest ha => exact .inr ⟨rest, ha, rfl⟩
  | wait | otherWrite | read | quiescent | refuse => exact absurd rfl hm
  | set w rest => exact absurd (applyInput_mode w _) hm
  | accept l rest => exact absurd (acceptUnit_mode l _) hm

/-- Settles O1: State.reset lists R42's table, and CMD has no register. -/
theorem resetLeavesSpecValues : Obligations.ResetLeavesSpecValues :=
  ⟨rfl, rfl, rfl, rfl, rfl, rfl, rfl, fun _ => rfl⟩

/-- Settles O6: a reserved ERR_CODE ends every turn but RESET's. -/
theorem reservedErrCodeFaults : Obligations.ReservedErrCodeFaults := by
  unfold Obligations.ReservedErrCodeFaults
  intro s hcode
  exact ⟨step_reserved (decide_eq_true hcode), fun rest ha => ⟨_, step_reset ha, rfl⟩⟩

/-- Settles O30: a SET while not BUSY is applyInput, which writes the one input. -/
theorem setSizesTakeEffect : Obligations.SetSizesTakeEffect := by
  unfold Obligations.SetSizesTakeEffect
  intro s rest hr hb
  exact ⟨fun _ => step_set hr hb, fun _ => step_set hr hb, fun _ => step_set hr hb, fun _ => step_set hr hb⟩

/-- Settles O54: only CMD takes a host write. -/
theorem readOnlyRegistersIgnoreWrites : Obligations.ReadOnlyRegistersIgnoreWrites :=
  fun _ _ _ _ hr hn ha => step_other_write hr hn ha

end

section
/-! PROOFS. Where each byte of a complete image stands (20_memory.md R54), and that a run's stream at DONE is that
image. -/

namespace Sys2Proof.Machine

/-! ### The units inside a stream -/

section

variable {m : ModeWord} {s : State} {n : Nat} {img : List Byte}

theorem streamOf_ok (h : ∀ u < n, ∃ l, unitOf m s u = .ok l) : ∃ img, streamOf m s n = .ok img := by
  induction n with
  | zero => exact ⟨[], rfl⟩
  | succ n ih =>
    obtain ⟨before, hbefore⟩ := ih fun u hu => h u (Nat.lt_succ_of_lt hu)
    obtain ⟨last, hlast⟩ := h n n.lt_succ_self
    exact ⟨_, streamOf_succ _ _ _ _ _ hbefore hlast⟩

/-- A stream of n + 1 units is the stream of the first n, then unit n. -/
theorem streamOf_succ_parts (h : streamOf m s (n + 1) = .ok img) :
    ∃ before last, streamOf m s n = .ok before ∧ unitOf m s n = .ok last ∧ img = before ++ last := by
  cases hbefore : streamOf m s n with
  | error r => rw [streamOf, hbefore] at h; cases h
  | ok before =>
    cases hlast : unitOf m s n with
    | error r => rw [streamOf, hbefore, hlast] at h; cases h
    | ok last =>
      rw [streamOf_succ _ _ _ _ _ hbefore hlast] at h
      exact ⟨before, last, rfl, rfl, (Except.ok.inj h).symm⟩

/-- Units stand in the stream one after the other: byte i of unit u is at u times the unit's size, plus i. -/
theorem streamOf_getD {u i : Nat} {l : List Byte} (h : streamOf m s n = .ok img) (hu : u < n)
    (hl : unitOf m s u = .ok l) (hi : i < bytesPerUnit m) : img.getD (u * bytesPerUnit m + i) 0 = l.getD i 0 := by
  induction n generalizing img with
  | zero => omega
  | succ n ih =>
    obtain ⟨before, last, hbefore, hlast, rfl⟩ := streamOf_succ_parts h
    have hlen := streamOf_length _ _ _ _ hbefore
    rcases Nat.lt_succ_iff_lt_or_eq.1 hu with hlt | rfl
    · have hin : (u + 1) * bytesPerUnit m ≤ n * bytesPerUnit m := Nat.mul_le_mul_right _ hlt
      rw [Nat.succ_mul] at hin
      rw [List.getD_append _ _ _ _ (by omega)]
      exact ih hbefore hlt
    · rw [List.getD_append_right _ _ _ _ (by omega), hlen, Nat.add_sub_cancel_left, Except.ok.inj (hlast.symm.trans hl)]

theorem image_eq_streamOf (hn : totalUnits m = some n) : image m s = streamOf m s n := by
  simp only [image, hn]

/-- Under inputs that pass validation the image is there, and it is its units one after the other. -/
theorem image_units (hv : validate m s = .ok ()) (hn : totalUnits m = some n) :
    ∃ img, image m s = .ok img ∧ img.length = n * bytesPerUnit m ∧
      ∀ u i l, u < n → i < bytesPerUnit m → unitOf m s u = .ok l →
        img.getD (u * bytesPerUnit m + i) 0 = l.getD i 0 := by
  obtain ⟨img, himg⟩ := streamOf_ok fun u hu => unitOf_ok hv hn hu
  exact ⟨img, (image_eq_streamOf hn).trans himg, streamOf_length _ _ _ _ himg,
    fun u i l hu hi hl => streamOf_getD himg hu hl hi⟩

end

/-! ### What the unit at each position is -/

/-- A palette unit is one colour byte, of an entry that exists. -/
theorem unitOf_pal_parts {s : State} {u : Nat} {l : List Byte} (h : unitOf Config.palWord s u = .ok l) :
    ∃ c, palRead s u = .ok c ∧ l = [encColor c] := by
  change unitPal s u = .ok l at h
  unfold unitPal at h
  cases hc : palRead s u with
  | error r => rw [hc] at h; cases h
  | ok c => rw [hc] at h; exact ⟨c, rfl, (Except.ok.inj h).symm⟩

/-- Unit 2t + b of a tile image is the lower (b = 0) or upper (b = 1) band of tile t (42_tile_mode.md R99, R100). -/
theorem unitOf_tile (s : State) (t b : Nat) (hb : b < 2) :
    unitOf Config.tileWord s (2 * t + b)
      = enc8x4 s (8 * (t % (s.inW.toNat / 8)) + 7) (8 * (t / (s.inW.toNat / 8)) + (if b = 0 then 7 else 3)) := by
  change unitTile s (2 * t + b) = _
  have ht : (2 * t + b) / 2 = t := by omega
  have hrow (y : Nat) : 8 * y + 7 - 4 * ((2 * t + b) % 2) = 8 * y + (if b = 0 then 7 else 3) := by split <;> omega
  simp only [unitTile, ht, hrow]

/-- The constant sprite table, column by column (30_encoding.md R81). -/
theorem spriteOffsets_eq : ∀ k : Fin 8,
    Config.spriteOffsets[k] = ([15, 15, 15, 15, 7, 7, 7, 7].getD k 0, [15, 3, 7, 11, 15, 3, 7, 11].getD k 0) := by
  decide

/-- Unit 8n + k of a sprite image is sub-block k of sprite n (43_sprite_mode.md R107, R109). -/
theorem unitOf_spr (s : State) (n k : Nat) (hk : k < 8) :
    unitOf Config.sprWord s (8 * n + k)
      = enc8x4 s (16 * (n % (s.inW.toNat / 16)) + [15, 15, 15, 15, 7, 7, 7, 7].getD k 0)
          (16 * (n / (s.inW.toNat / 16)) + [15, 3, 7, 11, 15, 3, 7, 11].getD k 0) := by
  change unitSprite s (8 * n + k) = _
  have hn : (8 * n + k) / 8 = n := by omega
  have hmod : (8 * n + k) % 8 = k := by omega
  have hd := spriteOffsets_eq ⟨k, hk⟩
  simp only [Fin.getElem_fin] at hd
  simp only [unitSprite, hn, hmod, hd]

/-! ### The image of each mode, byte by byte -/

variable {s t : State}

theorem palImage_positions (hv : validate Config.palWord s = .ok ()) :
    ∃ img, image Config.palWord s = .ok img ∧ img.length = 32 ∧
      ∀ j, j < 32 → ∃ c, palRead s j = .ok c ∧ img.getD j 0 = encColor c := by
  obtain ⟨img, himg, hlen, hbyte⟩ := image_units hv rfl
  refine ⟨img, himg, hlen, fun j hj => ?_⟩
  obtain ⟨l, hl⟩ := unitOf_ok hv rfl hj
  obtain ⟨c, hc, rfl⟩ := unitOf_pal_parts hl
  exact ⟨c, hc, by simpa using hbyte j 0 _ hj (by decide) hl⟩

theorem tileImage_positions (hv : validate Config.tileWord s = .ok ()) :
    ∃ img, image Config.tileWord s = .ok img ∧ img.length = 4096 ∧
      ∀ t b c, t < 256 → b < 2 → c < 8 →
        ∃ l, enc8x4 s (8 * (t % (s.inW.toNat / 8)) + 7)
            (8 * (t / (s.inW.toNat / 8)) + (if b = 0 then 7 else 3)) = .ok l
          ∧ img.getD (16 * t + 8 * b + c) 0 = l.getD c 0 := by
  obtain ⟨img, himg, hlen, hbyte⟩ := image_units hv rfl
  refine ⟨img, himg, hlen, fun t b c ht hb hc => ?_⟩
  have hu : 2 * t + b < 512 := by omega
  obtain ⟨l, hl⟩ := unitOf_ok hv rfl hu
  have hpos : 16 * t + 8 * b + c = (2 * t + b) * 8 + c := by omega
  exact ⟨l, unitOf_tile s t b hb ▸ hl, hpos ▸ hbyte _ c l hu hc hl⟩

theorem sprImage_positions (hv : validate Config.sprWord s = .ok ()) :
    ∃ img, image Config.sprWord s = .ok img ∧ img.length = 4096 ∧
      ∀ n k c, n < 64 → k < 8 → c < 8 →
        ∃ l, enc8x4 s
            (16 * (n % (s.inW.toNat / 16)) + ([15, 15, 15, 15, 7, 7, 7, 7].getD k 0))
            (16 * (n / (s.inW.toNat / 16)) + ([15, 3, 7, 11, 15, 3, 7, 11].getD k 0)) = .ok l
          ∧ img.getD (64 * n + 8 * k + c) 0 = l.getD c 0 := by
  obtain ⟨img, himg, hlen, hbyte⟩ := image_units hv rfl
  refine ⟨img, himg, hlen, fun n k c hn hk hc => ?_⟩
  have hu : 8 * n + k < 512 := by omega
  obtain ⟨l, hl⟩ := unitOf_ok hv rfl hu
  have hpos : 64 * n + 8 * k + c = (8 * n + k) * 8 + c := by omega
  exact ⟨l, unitOf_spr s n k hk ▸ hl, hpos ▸ hbyte _ c l hu hc hl⟩

/-! ### The run that ends in DONE -/

theorem SameInputs.trans {r : State} (h : SameInputs r s) (h' : SameInputs s t) : SameInputs r t :=
  ⟨h.inPaletted.trans h'.inPaletted, h.inW.trans h'.inW, h.inH.trans h'.inH, h.inN.trans h'.inN, h.pix.trans h'.pix,
    h.palt.trans h'.palt⟩

/-- An accepted core turn leaves every input alone (20_memory.md R46). -/
theorem sameInputs_accept (l : List Byte) (rest : List Move) (s : State) :
    SameInputs s (acceptUnit l (takeMove rest s)) :=
  (sameInputs_takeMove rest s).trans (sameInputs_acceptUnit l _)

/-- Only the accepted core turn of the last unit leads from BUSY to DONE (44_sequencer.md R120). -/
theorem accept_of_step_to_done (hs : CoreInv s) (hb : s.phase = .busy) (h : step s = .next t) (hd : t.phase = .done) :
    ∃ l rest, s.agenda = .step .accept :: rest ∧ unitOf s.mode s s.unitCtr.toNat = .ok l
      ∧ totalUnits s.mode = some (s.unitCtr.toNat + 1) ∧ t = acceptUnit l (takeMove rest s) := by
  rcases phaseTransitions.1 s t hs h with hp | ⟨_, _, _, hnb, _⟩ | ⟨rest, ha, _, _, hlast⟩ | ⟨_, _, _, _, hp⟩
      | ⟨_, _, hp⟩
  · simp [hp, hb] at hd
  · exact absurd hb hnb
  · obtain ⟨l, hu, hstep⟩ := step_accept hs hb ha
    rw [hstep] at h
    cases h
    exact ⟨l, rest, ha, hu, hlast, rfl⟩
  · simp [hp] at hd
  · simp [hp] at hd

/-- The stream of a run that reached DONE is the mode's complete image (44_sequencer.md R125). -/
theorem image_of_step_to_done (hs : CoreInv s) (hb : s.phase = .busy) (h : step s = .next t) (hd : t.phase = .done) :
    image t.mode t = .ok t.out := by
  obtain ⟨l, rest, _, hu, hlast, rfl⟩ := accept_of_step_to_done hs hb h hd
  rw [acceptUnit_mode, takeMove_mode, acceptUnit_out, takeMove_out, image_eq_streamOf hlast,
    ← streamOf_congr (sameInputs_accept l rest s)]
  exact streamOf_succ _ _ _ _ _ (hs.run.stream hb) hu

end Sys2Proof.Machine

open Sys2Proof.Machine

/-- Settles O40: an image is its units one after the other, and at DONE the stream holds all of them. -/
theorem outputPositions : Obligations.OutputPositions := by
  unfold Obligations.OutputPositions
  refine ⟨fun s hv => palImage_positions hv, fun s hv => tileImage_positions hv, fun s hv => sprImage_positions hv,
    fun s t hs hb h hd => ⟨image_of_step_to_done hs hb h hd, ?_⟩⟩
  exact (step_inv hs h).run.counted (by simp [hd])

end

section
/-! PROOFS. What reaches the output from the input spaces: in-range reads (20_memory.md R48), bits [1:0] of each index
(R47). -/

namespace Sys2Proof.Machine

variable {s t : State}

theorem pixRead_ok {x y : Int} (h : 0 ≤ x ∧ x < s.inW.toNat ∧ 0 ≤ y ∧ y < s.inH.toNat) :
    pixRead s x y = .ok (Memory.get pixUnset s.pix (pixKey x.toNat y.toNat)) :=
  if_pos h

theorem pixRead_error {x y : Int} (h : ¬ (0 ≤ x ∧ x < s.inW.toNat ∧ 0 ≤ y ∧ y < s.inH.toNat)) :
    pixRead s x y = .error .pixOutOfRange :=
  if_neg h

/-- A unit depends on W, the palette and the samples alone. -/
theorem unitOf_of_samples (hw : s.inW = t.inW) (hpal : ∀ i, palRead s i = palRead t i)
    (hpix : ∀ x y, samplePixel s x y = samplePixel t x y) (m : ModeWord) (u : Nat) : unitOf m s u = unitOf m t u := by
  have henc (x y : Nat) : enc8x4 s x y = enc8x4 t x y := by simp only [enc8x4, encColumn, hpix]
  simp only [unitOf, unitPal, unitTile, unitSprite, hpal, henc, hw]

/-- A sample is bits [1:0] of its index (20_memory.md R47). -/
theorem samplePixel_of_lowBits {p : List Host.Cell}
    (h : ∀ k, (Memory.get pixUnset p k).extractLsb' 0 2 = (Memory.get pixUnset s.pix k).extractLsb' 0 2) (x y : Int) :
    samplePixel { s with pix := p } x y = samplePixel s x y := by
  by_cases hin : 0 ≤ x ∧ x < s.inW.toNat ∧ 0 ≤ y ∧ y < s.inH.toNat
  · rw [samplePixel, samplePixel, pixRead_ok hin, pixRead_ok (by exact hin)]
    exact congrArg Except.ok (h _)
  · rw [samplePixel_error s x y hin, samplePixel_error _ x y (by exact hin)]

end Sys2Proof.Machine

open Sys2Proof.Machine

/-- Settles O25: PixRead tests the grid, and validation admits only grids whose units stay in it (R97). -/
theorem pixelReadsStayInTheGrid : Obligations.PixelReadsStayInTheGrid := by
  unfold Obligations.PixelReadsStayInTheGrid
  exact ⟨fun s x y h => pixRead_error (by omega),
    fun s x y hx hy hw hh => ⟨_, pixRead_ok ⟨hx, hw, hy, hh⟩⟩,
    fun m s n u hv hn hu => unitOf_ok hv hn hu⟩

/-- Settles O26: a unit sees the grid through its samples, and a sample is bits [1:0] of the index. -/
theorem highIndexBitsNeverReachTheOutput : Obligations.HighIndexBitsNeverReachTheOutput :=
  fun s p h m u =>
    unitOf_of_samples (s := { s with pix := p }) (t := s) rfl (fun _ => rfl) (samplePixel_of_lowBits h) m u

end

section
/-! PROOFS. What a step does to the input spaces (20_memory.md R46, R51) and to the stream (R52, R53). -/

namespace Sys2Proof.Machine

variable {s t : State}

theorem SameInputs.sameSpaces (h : SameInputs s t) : SameSpaces s t where
  pix k := by rw [h.pix]
  palt i := by rw [h.palt]

/-- Of all a step can do, only a SET writes an input, and it was not made while BUSY. -/
theorem sameInputs_or_set_of_step (h : step s = .next t) :
    SameInputs s t ∨ (s.phase ≠ .busy ∧ ∃ w rest, s.agenda = .set w :: rest) := by
  cases stepResult_of_step h with
  | set w rest ha hb => exact .inr ⟨hb, w, rest, ha⟩
  | accept l rest => exact .inl (sameInputs_accept l rest s)
  | wait | startFails | startPasses | otherWrite | read | reset | quiescent | refuse =>
    exact .inl ⟨rfl, rfl, rfl, rfl, rfl, rfl⟩

/-- Every START gives an empty stream, whether validation passes or not (20_memory.md R53). -/
theorem out_of_start {m : ModeWord} (h : start m s = .next t) : t.out = [] := by
  obtain ⟨_, ⟨_, _, rfl⟩ | ⟨_, rfl⟩⟩ := start_next h <;> rfl

end Sys2Proof.Machine

open Sys2Proof.Machine

/-- Settles O49: a step that made no SET left every input as it was, and so every pixel and entry. -/
theorem inputsStableDuringARun : Obligations.InputsStableDuringARun :=
  fun _ _ h hdiff => (sameInputs_or_set_of_step h).resolve_left fun hsame => hdiff ⟨hsame, hsame.sameSpaces⟩

/-- Settles O50: of all a step can do, only an accepted unit and a START write the stream. -/
theorem streamIsAppendOnly : Obligations.StreamIsAppendOnly := by
  unfold Obligations.StreamIsAppendOnly
  refine ⟨fun s t h hcmd => ?_, fun s t v rest ha h => out_of_start (start_of_step_cmd ha h)⟩
  cases stepResult_of_step h with
  | accept l rest ha hb hu => exact .inr ⟨l, rest, ha, hb, hu, acceptUnit_out l _⟩
  | startFails v rest _ ha | startPasses v rest ha => exact absurd ha (hcmd v rest)
  | set w rest => exact .inl (applyInput_out w _)
  | wait | otherWrite | read | reset | quiescent | refuse => exact .inl rfl

end

section
/-! PROOFS. The decoder: the mode word inside a CMD value, and the row it selects (30_encoding.md R69, R70). -/

namespace Sys2Proof

/-! ### The mode word of a CMD value -/

@[simp] theorem spriteFlag_modeWordOf (v : Word) : spriteFlag (modeWordOf v) = v.getLsbD 1 := by
  simp [spriteFlag, modeWordOf]

@[simp] theorem palOnly_modeWordOf (v : Word) : palOnly (modeWordOf v) = v.getLsbD 0 := by
  simp [palOnly, modeWordOf]

@[simp] theorem modeWordOf_encodeCmd (i : Instr) : modeWordOf (encodeCmd i) = encode i := by
  cases i <;> rfl

theorem modeWordOf_eq_iff (v : Word) (m : ModeWord) : modeWordOf v = m ↔ v.toNat % 4 = m.toNat := by
  rw [← BitVec.toNat_inj, modeWordOf, BitVec.extractLsb'_toNat, Nat.shiftRight_zero]

theorem modeWordOf_congr {v v' : Word} (h0 : v.getLsbD 0 = v'.getLsbD 0) (h1 : v.getLsbD 1 = v'.getLsbD 1) :
    modeWordOf v = modeWordOf v' := by
  refine BitVec.eq_of_getLsbD_eq fun i hi => ?_
  rcases (by omega : i = 0 ∨ i = 1) with rfl | rfl
  · simpa [modeWordOf] using h0
  · simpa [modeWordOf] using h1

/-- A table word keeps its low two bits in the CMD value that carries it. -/
theorem cmdValue_mod_four {nbits : Nat} (w : Nat) (h : 2 ≤ nbits) : (cmdValue nbits w).toNat % 4 = w % 4 := by
  rw [cmdValue, BitVec.toNat_ofNat, Nat.mod_mod_of_dvd _ (by decide),
    Nat.mod_mod_of_dvd _ (show 4 ∣ 2 ^ nbits from pow_dvd_pow 2 h)]

/-! ### The row it selects -/

theorem decodeModeWord_eq_ok_iff (m : ModeWord) (i : Instr) : decodeModeWord m = .ok i ↔ m = encode i := by
  rcases Machine.modeWord_cases m with rfl | rfl | rfl | rfl <;> cases i <;> decide

theorem decodeModeWord_eq_error_iff (m : ModeWord) :
    decodeModeWord m = .error .illegalModeWord ↔ m = Config.illegalWord := by
  rcases Machine.modeWord_cases m with rfl | rfl | rfl | rfl <;> decide

theorem decodeCmd_eq_ok_iff (v : Word) (i : Instr) : decodeCmd v = .ok i ↔ modeWordOf v = encode i :=
  decodeModeWord_eq_ok_iff _ i

theorem decodeTableWord_eq_some_iff (nbits w : Nat) (i : Instr) :
    decodeTableWord nbits w = some i ↔ decodeCmd (cmdValue nbits w) = .ok i := by
  unfold decodeTableWord
  cases decodeCmd (cmdValue nbits w) <;> simp

namespace Machine

/-- A CMD write is seen through its mode word alone, in every state. -/
theorem step_cmd_congr {s t : State} {v v' : Word} {rest : List Move} (hs : s.agenda = .write cmdNumber v :: rest)
    (ht : t.agenda = .write cmdNumber v' :: rest) (hst : takeMove rest s = takeMove rest t)
    (h : modeWordOf v = modeWordOf v') : step s = step t := by
  have hcode : s.errCode = t.errCode := by simpa using congrArg State.errCode hst
  cases hr : errReserved s.errCode with
  | true => rw [step_reserved hr (by simp [hs]), step_reserved (hcode ▸ hr) (by simp [ht])]
  | false => rw [step_cmd hr hs, step_cmd (hcode ▸ hr) ht, h, hst]

/-- The command a CMD value decodes to is the START a write of that value makes. -/
theorem step_cmd_exec {s : State} {v : Word} {rest : List Move} {i : Instr} (hr : errReserved s.errCode = false)
    (ha : s.agenda = .write cmdNumber v :: rest) (hv : decodeCmd v = .ok i) : step s = exec i (takeMove rest s) := by
  rw [step_cmd hr ha, (decodeCmd_eq_ok_iff v i).1 hv, exec_eq_start]

end Machine

end Sys2Proof

open Sys2Proof Sys2Proof.Machine

/-- Settles O8: a decoded command is the one whose mode word is the value's low two bits. -/
theorem decodeAndEncodeAgree : Obligations.DecodeAndEncodeAgree := by
  unfold Obligations.DecodeAndEncodeAgree
  have hok (v : Word) (i : Instr) : decodeCmd v = .ok i ↔ v.toNat % 4 = (encode i).toNat :=
    (decodeCmd_eq_ok_iff v i).trans (modeWordOf_eq_iff v _)
  refine ⟨fun i _ => (decodeCmd_eq_ok_iff _ i).2 (modeWordOf_encodeCmd i), hok,
    fun v => (decodeModeWord_eq_error_iff _).trans (modeWordOf_eq_iff v _), fun nbits w i hbits => ?_⟩
  rw [decodeTableWord_eq_some_iff, hok, cmdValue_mod_four w hbits]

/-- Settles O10: the decoder reads the mode word alone, and so does a step, which makes that mode word's START. -/
theorem cmdHighBitsAreIgnored : Obligations.CmdHighBitsAreIgnored := by
  unfold Obligations.CmdHighBitsAreIgnored
  intro v v' h0 h1
  have hmode := modeWordOf_congr h0 h1
  refine ⟨?_, congrArg decodeModeWord hmode, fun s rest => step_cmd_congr rfl rfl rfl hmode⟩
  cases hsprite : v.getLsbD 1 <;> cases hpal : v.getLsbD 0 <;>
    simp only [decodeCmd, decodeModeWord, spriteFlag_modeWordOf, palOnly_modeWordOf, hsprite, hpal]

/-- Settles O7: the four words, and four CMD values with higher bits set, evaluated. -/
theorem decodeSampleWords : Obligations.DecodeSampleWords :=
  ⟨rfl, rfl, rfl, rfl, rfl, rfl, rfl, rfl⟩

/-- Settles O9: a CMD write makes the START of its mode word, and the command it decodes to is that START. -/
theorem stepRunsDecodedCommand : Obligations.StepRunsDecodedCommand := by
  unfold Obligations.StepRunsDecodedCommand
  exact ⟨fun s v rest i hr ha hv => step_cmd_exec hr ha hv, fun s nbits w i hr hw =>
    step_cmd_exec (s := s.withFetchWord nbits w) hr rfl ((decodeTableWord_eq_some_iff nbits w i).1 hw)⟩

end

section
/-! PROOFS. What the host's SET of pixels and palette entries leaves in the input spaces (30_encoding.md R86). -/

namespace Sys2Proof.Machine

variable {s t : State} {rest : List Move}

/-- Points on the grid's coordinates have the same key only when they are the same point (log 13). -/
theorem pixKey_toNat_inj {x y x' y' : BitVec 16} :
    pixKey x.toNat y.toNat = pixKey x'.toNat y'.toNat ↔ x = x' ∧ y = y' := by
  rw [pixKey_inj _ _ _ _ x.isLt x'.isLt, BitVec.toNat_inj, BitVec.toNat_inj]

theorem pixRead_toNat {x y : Nat} (hx : x < s.inW.toNat) (hy : y < s.inH.toNat) :
    pixRead s x y = .ok (Memory.get pixUnset s.pix (pixKey x y)) :=
  pixRead_ok ⟨by omega, by omega, by omega, by omega⟩

theorem palRead_ok {i : Nat} (hi : i < s.inN.toNat) : palRead s i = .ok (Memory.get paltUnset s.palt i) :=
  if_pos hi

/-! ### A SET of one element -/

/-- A pixel read sees the grid only at the point's own key. -/
theorem pixRead_put_of_ne {x y : BitVec 16} {v : Byte} {a b : Int} (hm : Memory.wf pixUnset s.pix)
    (hne : ¬ (a = x.toNat ∧ b = y.toNat)) :
    pixRead { s with pix := Memory.put pixUnset s.pix (pixKey x.toNat y.toNat) v } a b = pixRead s a b := by
  by_cases hin : 0 ≤ a ∧ a < s.inW.toNat ∧ 0 ≤ b ∧ b < s.inH.toNat
  · have hkey : pixKey a.toNat b.toNat ≠ pixKey x.toNat y.toNat := by
      rw [Ne, pixKey_inj _ _ _ _ (by omega) x.isLt]
      omega
    rw [pixRead_ok hin, pixRead_ok (by exact hin), Memory.get_put _ _ _ _ _ hm, if_neg hkey]
  · rw [pixRead_error hin, pixRead_error (by exact hin)]

theorem pixRead_put_same {x y : BitVec 16} {v : Byte} (hm : Memory.wf pixUnset s.pix) (hx : x.toNat < s.inW.toNat)
    (hy : y.toNat < s.inH.toNat) :
    pixRead { s with pix := Memory.put pixUnset s.pix (pixKey x.toNat y.toNat) v } x.toNat y.toNat = .ok v := by
  rw [pixRead_toNat (by exact hx) (by exact hy), Memory.get_put _ _ _ _ _ hm, if_pos rfl]

theorem palRead_put_same {i : Nat} {c : RGB} (hm : Memory.wf paltUnset s.palt) (hi : i < s.inN.toNat) :
    palRead { s with palt := Memory.put paltUnset s.palt i c } i = .ok c := by
  rw [palRead_ok (by exact hi), Memory.get_put _ _ _ _ _ hm, if_pos rfl]

theorem palRead_put_of_ne {i j : Nat} {c : RGB} (hm : Memory.wf paltUnset s.palt) (hne : j ≠ i) :
    palRead { s with palt := Memory.put paltUnset s.palt i c } j = palRead s j := by
  simp only [palRead, Memory.get_put _ _ _ _ _ hm, if_neg hne]

/-! ### A SET of a whole space -/

/-- The last listed point is written last (log 17). -/
theorem gridOf_concat (ps : List (BitVec 16 × BitVec 16 × Byte)) (p : BitVec 16 × BitVec 16 × Byte) :
    gridOf (ps ++ [p]) = Memory.put pixUnset (gridOf ps) (pixKey p.1.toNat p.2.1.toNat) p.2.2 := by
  simp only [gridOf, List.foldl_append, List.foldl_cons, List.foldl_nil]

theorem get_gridOf_concat (ps : List (BitVec 16 × BitVec 16 × Byte)) (x y x' y' : BitVec 16) (v' : Byte) :
    Memory.get pixUnset (gridOf (ps ++ [(x', y', v')])) (pixKey x.toNat y.toNat)
      = if x = x' ∧ y = y' then v' else Memory.get pixUnset (gridOf ps) (pixKey x.toNat y.toNat) := by
  rw [gridOf_concat, Memory.get_put _ _ _ _ _ (gridOf_wf ps)]
  simp only [pixKey_toNat_inj]

theorem get_gridOf_of_mem {ps : List (BitVec 16 × BitVec 16 × Byte)} {x y : BitVec 16} {v : Byte}
    (hnodup : (ps.map fun p => (p.1, p.2.1)).Nodup) (h : (x, y, v) ∈ ps) :
    Memory.get pixUnset (gridOf ps) (pixKey x.toNat y.toNat) = v := by
  induction ps using List.reverseRecOn with
  | nil => cases h
  | append_singleton ps p ih =>
    obtain ⟨x', y', v'⟩ := p
    rw [List.map_append, List.nodup_append] at hnodup
    obtain ⟨hinit, -, hlast⟩ := hnodup
    rw [get_gridOf_concat]
    rcases List.mem_append.1 h with h | h
    · have hne : (x, y) ≠ (x', y') := hlast _ (List.mem_map.2 ⟨_, h, rfl⟩) _ (by simp)
      rw [if_neg (by simpa using hne)]
      exact ih hinit h
    · obtain ⟨rfl, rfl, rfl⟩ : x = x' ∧ y = y' ∧ v = v' := by simpa using h
      exact if_pos ⟨rfl, rfl⟩

theorem get_gridOf_of_not_mem {ps : List (BitVec 16 × BitVec 16 × Byte)} {x y : BitVec 16}
    (h : ∀ v, (x, y, v) ∉ ps) : Memory.get pixUnset (gridOf ps) (pixKey x.toNat y.toNat) = pixUnset := by
  induction ps using List.reverseRecOn with
  | nil => rfl
  | append_singleton ps p ih =>
    obtain ⟨x', y', v'⟩ := p
    have hne : ¬ (x = x' ∧ y = y') := by
      rintro ⟨rfl, rfl⟩
      exact h v' (by simp)
    rw [get_gridOf_concat, if_neg hne]
    exact ih fun v hv => h v (List.mem_append_left _ hv)

/-- Entries written from index i on: below i the table is as it was, and past the list too. -/
theorem get_paletteOf {i : Nat} {cs : List RGB} {m : List (Nat × RGB)} (hm : Memory.wf paltUnset m) (k : Nat) :
    Memory.get paltUnset (paletteOf i cs m) k
      = if k < i then Memory.get paltUnset m k else cs.getD (k - i) (Memory.get paltUnset m k) := by
  induction cs generalizing i m with
  | nil => simp [paletteOf]
  | cons c cs ih =>
    rw [paletteOf, ih (Memory.put_wf _ _ _ _ hm), Memory.get_put _ _ _ _ _ hm]
    rcases lt_trichotomy k i with hlt | rfl | hgt
    · rw [if_pos (by omega), if_neg (by omega), if_pos hlt]
    · simp
    · have hk : k - i = (k - (i + 1)) + 1 := by omega
      rw [if_neg (by omega), if_neg (by omega), if_neg (by omega), hk, List.getD_cons_succ]

end Sys2Proof.Machine

open Sys2Proof.Machine

/-- Settles O28: the SET writes the one key of (x, y), which no other point reads. -/
theorem setPixelReadsBack : Obligations.SetPixelReadsBack := by
  unfold Obligations.SetPixelReadsBack
  intro s x y v rest ⟨hm, _⟩ hr hb ha
  exact ⟨_, step_set hr hb ha, pixRead_put_same (s := takeMove rest s) hm,
    fun a b hne => pixRead_put_of_ne (s := takeMove rest s) hm hne, fun i => rfl, rfl⟩

/-- Settles O29: the SET writes the one key of entry i. -/
theorem setPaletteEntryReadsBack : Obligations.SetPaletteEntryReadsBack := by
  unfold Obligations.SetPaletteEntryReadsBack
  intro s i c rest ⟨_, hm⟩ hr hb ha
  exact ⟨_, step_set hr hb ha, palRead_put_same (s := takeMove rest s) hm,
    fun j hne => palRead_put_of_ne (s := takeMove rest s) hm hne, fun a b => rfl, rfl⟩

/-- Settles O31: gridOf writes each listed point once, and paletteOf the i-th triple at index i. -/
theorem setWholeSpacesTakeEffect : Obligations.SetWholeSpacesTakeEffect := by
  unfold Obligations.SetWholeSpacesTakeEffect
  intro s rest hr hb
  refine ⟨fun ps hnodup ha => ⟨_, step_set hr hb ha, rfl, fun x y v hmem hx hy => ?_, fun x y hmem hx hy => ?_⟩,
    fun cs ha => ⟨_, step_set hr hb ha, rfl, fun i hi => ?_⟩⟩
  · exact (pixRead_toNat (by exact hx) (by exact hy)).trans (congrArg _ (get_gridOf_of_mem hnodup hmem))
  · exact (pixRead_toNat (by exact hx) (by exact hy)).trans (congrArg _ (get_gridOf_of_not_mem hmem))
  · exact (palRead_ok (by exact hi)).trans (congrArg _ (get_paletteOf (i := 0) (Memory.nil_wf _) i))

end

section
/-! PROOFS. Which bits of the inputs stand in which bits of a byte: the colour byte (40_palette.md R87) and the band
(30_encoding.md R75, R76). -/

namespace Sys2Proof.Machine

/-- The colour byte is the kept bits of blue, green and red, one after the other (40_palette.md R88). -/
theorem encColor_eq_append (c : RGB) :
    encColor c = c.b.extractLsb' 6 2 ++ c.g.extractLsb' 5 3 ++ c.r.extractLsb' 5 3 := by
  refine BitVec.eq_of_getLsbD_eq (w := 2 + 3 + 3) fun i hi => ?_
  simp only [BitVec.getLsbD_append]
  interval_cases i <;> simp [encColor]

/-- Bit r of byte c of a band, and bit 4 + r, come from the pixel at (x, y) when the reference point is
(x + c, y + r). -/
theorem bandByte_bits {s : State} {x y c r : Nat} {l : List Byte} (h : enc8x4 s (x + c) (y + r) = .ok l) (hc : c < 8)
    (hr : r < 4) :
    ∃ p, samplePixel s x y = .ok p ∧ (l.getD c 0).getLsbD r = p.getLsbD 0
      ∧ (l.getD c 0).getLsbD (4 + r) = p.getLsbD 1 := by
  rcases enc8x4_cases s (x + c) (y + r) with ⟨_, hx, _, hy, hok⟩ | ⟨_, herr⟩
  · obtain rfl := Except.ok.inj (h.symm.trans hok)
    have hbyte : (((List.range 8).map fun c' => lane fun r' => pixelBits s (x + c - c') (y + r - r')).getD c 0)
        = lane fun r' => pixelBits s x (y + r - r') := by
      simp [List.getD_eq_getElem?_getD, hc]
    refine ⟨pixelBits s x y, samplePixel_ok s x y (by omega) (by omega), ?_, ?_⟩
    · rw [hbyte, lane_low _ r hr, Nat.add_sub_cancel]
    · rw [hbyte, lane_high _ r hr, Nat.add_sub_cancel]
  · rw [herr] at h
    cases h

end Sys2Proof.Machine

open Sys2Proof.Machine

/-- Settles O27: the colour byte is made of the kept bits alone. -/
theorem lowChannelBitsNeverReachTheOutput : Obligations.LowChannelBitsNeverReachTheOutput := by
  unfold Obligations.LowChannelBitsNeverReachTheOutput
  intro a b hr hg hb
  rw [encColor_eq_append, encColor_eq_append, hr, hg, hb]

/-- Settles O33: the band is eight lanes, and each lane packs the four pixels of its column. -/
theorem bandByteBits : Obligations.BandByteBits := by
  unfold Obligations.BandByteBits
  intro s x y hx7 hx hy3 hy
  obtain ⟨l, hl⟩ : ∃ l, enc8x4 s x y = .ok l := ⟨_, enc8x4_ok s x y hx7 hx hy3 hy⟩
  refine ⟨l, hl, enc8x4_length s x y l hl, fun c r hc hr => ?_⟩
  obtain ⟨x', rfl⟩ : ∃ x', x = x' + c := ⟨x - c, by omega⟩
  obtain ⟨y', rfl⟩ : ∃ y', y = y' + r := ⟨y - r, by omega⟩
  simpa using bandByte_bits hl hc hr

end

section
/-! PROOFS. Where each pixel of the grid stands in a tile image (30_encoding.md R83) and in a sprite image (R84). -/

namespace Sys2Proof.Machine

variable {s : State}

/-- The cell at column cx of row cy, counted in raster order over w by h cells. -/
theorem raster_index {w h cx cy : Nat} (hx : cx < w) (hy : cy < h) :
    cy * w + cx < w * h ∧ (cy * w + cx) % w = cx ∧ (cy * w + cx) / w = cy := by
  have hrow : (cy + 1) * w ≤ h * w := Nat.mul_le_mul_right w hy
  rw [Nat.succ_mul, Nat.mul_comm h w] at hrow
  refine ⟨by omega, ?_, ?_⟩
  · rw [Nat.mul_add_mod', Nat.mod_eq_of_lt hx]
  · rw [Nat.mul_comm, Nat.mul_add_div (by omega), Nat.div_eq_of_lt hx, Nat.add_zero]

/-! ### Tile mode -/

theorem tileCheck_of_validate (hv : validate Config.tileWord s = .ok ()) : tileCheck s = .ok () := by
  obtain ⟨-, ⟨hm, -⟩ | ⟨-, hc⟩ | ⟨hm, -⟩⟩ := validate_ok _ s () hv
  · cases hm
  · exact hc
  · cases hm

/-- The byte of a tile image that holds the pixel at (x, y), on a grid w pixels wide (30_encoding.md R83). -/
def tilePos (w x y : Nat) : Nat :=
  16 * ((y / 8) * (w / 8) + x / 8) + 8 * (if 4 ≤ y % 8 then 0 else 1) + (7 - x % 8)

/-- The bit of that byte that holds the pixel's plane 0 (30_encoding.md R83). -/
def tileRow (y : Nat) : Nat := 3 - (y % 8) % 4

theorem tileRow_lt (y : Nat) : tileRow y < 4 := by
  unfold tileRow
  omega

/-- Sixteen bytes to a tile, tiles in raster order. -/
theorem tilePos_div_sixteen (w x y : Nat) : tilePos w x y / 16 = (y / 8) * (w / 8) + x / 8 := by
  unfold tilePos
  split <;> omega

section

variable {w h x y : Nat} (hw : w % 8 = 0) (hh : h % 8 = 0)
include hw hh

theorem tilePos_injective {x' y' : Nat} (hx : x < w) (hy : y < h) (hx' : x' < w) (hy' : y' < h)
    (hpos : tilePos w x y = tilePos w x' y') (hrow : tileRow y = tileRow y') : x = x' ∧ y = y' := by
  obtain ⟨-, hcx, hcy⟩ := raster_index (by omega : x / 8 < w / 8) (by omega : y / 8 < h / 8)
  obtain ⟨-, hcx', hcy'⟩ := raster_index (by omega : x' / 8 < w / 8) (by omega : y' / 8 < h / 8)
  have htile : y / 8 * (w / 8) + x / 8 = y' / 8 * (w / 8) + x' / 8 := by
    rw [← tilePos_div_sixteen, hpos, tilePos_div_sixteen]
  rw [htile] at hcx hcy
  unfold tilePos at hpos
  unfold tileRow at hrow
  split at hpos <;> split at hpos <;> omega

variable (hc : (w / 8) * (h / 8) = 256)
include hc

theorem tilePos_lt (hx : x < w) (hy : y < h) : tilePos w x y < 4096 := by
  obtain ⟨ht, -, -⟩ := raster_index (by omega : x / 8 < w / 8) (by omega : y / 8 < h / 8)
  have hdiv := tilePos_div_sixteen w x y
  omega

theorem tilePos_surjective {j r : Nat} (hj : j < 4096) (hr : r < 4) :
    ∃ x y, x < w ∧ y < h ∧ tilePos w x y = j ∧ tileRow y = r := by
  obtain ⟨hcx, hcy⟩ := raster_lt (hc ▸ by omega : j / 16 < (w / 8) * (h / 8))
  have ht : j / 16 / (w / 8) * (w / 8) + j / 16 % (w / 8) = j / 16 := Nat.div_add_mod' _ _
  generalize j / 16 % (w / 8) = cx at hcx ht
  generalize j / 16 / (w / 8) = cy at hcy ht
  have hrow : ∃ b, b < 8 ∧ tileRow (8 * cy + b) = r ∧ (if 4 ≤ b then 0 else 1) = j / 8 % 2 := by
    refine ⟨(if j / 8 % 2 = 0 then 7 else 3) - r, ?_⟩
    unfold tileRow
    split <;> split <;> omega
  obtain ⟨b, hb, hr, hband⟩ := hrow
  refine ⟨8 * cx + (7 - j % 8), 8 * cy + b, by omega, by omega, ?_, hr⟩
  have hx : (8 * cx + (7 - j % 8)) / 8 = cx := by omega
  have hy : (8 * cy + b) / 8 = cy := by omega
  have hmod : (8 * cy + b) % 8 = b := by omega
  rw [tilePos, hx, hy, ht, hmod, hband]
  omega

end

/-- The byte and the bits of a tile image that hold the pixel at (x, y). -/
theorem tileImage_pixel (hv : validate Config.tileWord s = .ok ()) :
    ∃ img, image Config.tileWord s = .ok img ∧ img.length = 4096 ∧
      ∀ x y : Nat, x < s.inW.toNat → y < s.inH.toNat → ∃ p, samplePixel s x y = .ok p
        ∧ (img.getD (tilePos s.inW.toNat x y) 0).getLsbD (tileRow y) = p.getLsbD 0
        ∧ (img.getD (tilePos s.inW.toNat x y) 0).getLsbD (4 + tileRow y) = p.getLsbD 1 := by
  obtain ⟨hw, hh, hc⟩ := (tileCheck_ok s).1 (tileCheck_of_validate hv)
  obtain ⟨img, himg, hlen, hbyte⟩ := tileImage_positions hv
  refine ⟨img, himg, hlen, fun x y hx hy => ?_⟩
  obtain ⟨ht, hcx, hcy⟩ := raster_index (by omega : x / 8 < s.inW.toNat / 8) (by omega : y / 8 < s.inH.toNat / 8)
  obtain ⟨l, hl, hj⟩ :=
    hbyte _ (if 4 ≤ y % 8 then 0 else 1) (7 - x % 8) (hc ▸ ht) (by split <;> decide) (by omega)
  have hpx : 8 * (x / 8) + 7 = x + (7 - x % 8) := by omega
  have hpy : 8 * (y / 8) + (if (if 4 ≤ y % 8 then 0 else 1) = 0 then 7 else 3) = y + tileRow y := by
    unfold tileRow
    split <;> split <;> omega
  rw [hcx, hcy, hpx, hpy] at hl
  rw [tilePos, hj]
  exact bandByte_bits hl (by omega) (tileRow_lt y)

/-! ### Sprite mode -/

theorem spriteCheck_of_validate (hv : validate Config.sprWord s = .ok ()) : spriteCheck s = .ok () := by
  obtain ⟨-, ⟨hm, -⟩ | ⟨hm, -⟩ | ⟨-, hc⟩⟩ := validate_ok _ s () hv
  · cases hm
  · cases hm
  · exact hc

/-- The sub-block of its sprite that holds the pixel at (x, y) (30_encoding.md R84). -/
def subBlock (x y : Nat) : Nat := (if 8 ≤ x % 16 then 0 else 4) + ((y % 16) / 4 + 1) % 4

theorem subBlock_lt (x y : Nat) : subBlock x y < 8 := by
  unfold subBlock
  split <;> omega

/-- The sprite table's columns: its first four sub-blocks are the right half (30_encoding.md R81). -/
theorem spriteColumns_getD : ∀ k < 8, [15, 15, 15, 15, 7, 7, 7, 7].getD k 0 = if k < 4 then 15 else 7 := by decide

/-- The sprite table's rows: each half begins with its lowest band, then goes down from the top (30_encoding.md R81). -/
theorem spriteRows_getD : ∀ k < 8, [15, 3, 7, 11, 15, 3, 7, 11].getD k 0 = 4 * ((k + 3) % 4) + 3 := by decide

/-- The band of a pixel's sub-block has its bottom-right corner at the end of the pixel's own 8 by 4 block. -/
theorem subBlock_offsets (x y : Nat) :
    [15, 15, 15, 15, 7, 7, 7, 7].getD (subBlock x y) 0 = x % 16 + (7 - x % 8)
      ∧ [15, 3, 7, 11, 15, 3, 7, 11].getD (subBlock x y) 0 = y % 16 + (3 - (y % 16) % 4) := by
  rw [spriteColumns_getD _ (subBlock_lt x y), spriteRows_getD _ (subBlock_lt x y)]
  unfold subBlock
  constructor
  · split_ifs <;> omega
  · split <;> omega

/-- The byte and the bits of a sprite image that hold the pixel at (x, y). -/
theorem spriteImage_pixel (hv : validate Config.sprWord s = .ok ()) :
    ∃ img, image Config.sprWord s = .ok img ∧ img.length = 4096 ∧
      ∀ x y : Nat, x < s.inW.toNat → y < s.inH.toNat →
        let j := 64 * ((y / 16) * (s.inW.toNat / 16) + x / 16) + 8 * subBlock x y + (7 - x % 8)
        let r := 3 - (y % 16) % 4
        ∃ p, samplePixel s x y = .ok p
          ∧ (img.getD j 0).getLsbD r = p.getLsbD 0 ∧ (img.getD j 0).getLsbD (4 + r) = p.getLsbD 1 := by
  obtain ⟨hw, hh, hc⟩ := (spriteCheck_ok s).1 (spriteCheck_of_validate hv)
  obtain ⟨img, himg, hlen, hbyte⟩ := sprImage_positions hv
  refine ⟨img, himg, hlen, fun x y hx hy => ?_⟩
  obtain ⟨hn, hcx, hcy⟩ :=
    raster_index (by omega : x / 16 < s.inW.toNat / 16) (by omega : y / 16 < s.inH.toNat / 16)
  obtain ⟨l, hl, hj⟩ := hbyte _ (subBlock x y) (7 - x % 8) (hc ▸ hn) (subBlock_lt x y) (by omega)
  obtain ⟨hdx, hdy⟩ := subBlock_offsets x y
  have hpx : 16 * (x / 16) + (x % 16 + (7 - x % 8)) = x + (7 - x % 8) := by omega
  have hpy : 16 * (y / 16) + (y % 16 + (3 - (y % 16) % 4)) = y + (3 - (y % 16) % 4) := by omega
  rw [hcx, hcy, hdx, hdy, hpx, hpy] at hl
  simp only [hj]
  exact bandByte_bits hl (by omega) (by omega)

end Sys2Proof.Machine

open Sys2Proof.Machine

/-- Settles O38: the pixel's tile, band and column give the byte, its row in the band the bits, and every byte's tile,
band and column come from exactly one column of four pixels. -/
theorem tilePixelToByteMap : Obligations.TilePixelToByteMap := by
  unfold Obligations.TilePixelToByteMap
  intro s hv w h pos row
  obtain ⟨hw, hh, hc⟩ := (tileCheck_ok s).1 (tileCheck_of_validate hv)
  have harea : w * h = 16384 := by
    calc w * h = (8 * (w / 8)) * (8 * (h / 8)) := by
            rw [Nat.mul_div_cancel' (Nat.dvd_of_mod_eq_zero hw), Nat.mul_div_cancel' (Nat.dvd_of_mod_eq_zero hh)]
      _ = 64 * ((w / 8) * (h / 8)) := by ring
      _ = 16384 := by rw [hc]
  exact ⟨harea, tileImage_pixel hv, fun x y hx hy => ⟨tilePos_lt hw hh hc hx hy, tileRow_lt y⟩,
    fun j r => tilePos_surjective hw hh hc, fun x y x' y' => tilePos_injective hw hh⟩

/-- Settles O39: the pixel's sprite and sub-block give the byte, its row in the sub-block the bits. -/
theorem spritePixelToByteMap : Obligations.SpritePixelToByteMap :=
  fun _ hv => spriteImage_pixel hv

end

section
/-! PROOFS. START.PAL and its inputs (40_palette.md R90 to R92), and the colour byte's fields (R88). -/

namespace Sys2Proof.Machine

variable {s t : State} {m : ModeWord}

/-! ### START, once validation has answered (44_sequencer.md R117) -/

theorem start_of_validate_ok (hb : s.phase ≠ .busy) (hv : validate m s = .ok ()) :
    start m s = .next (enterBusy (beginRun m s)) := by
  rw [start, if_neg hb, validate_beginRun, hv]

theorem start_of_validate_error {e : ErrorReport} (hb : s.phase ≠ .busy) (hv : validate m s = .error e) :
    start m s = .next (raise e (beginRun m s)) := by
  rw [start, if_neg hb, validate_beginRun, hv]

/-- START sets every register, and only validation's answer enters what it sets. -/
theorem start_sameRegs (hs : s.phase ≠ .busy) (ht : t.phase ≠ .busy) (hv : validate m s = validate m t) :
    ∃ s' t', start m s = .next s' ∧ start m t = .next t' ∧ SameRegs s' t' := by
  cases h : validate m s with
  | error e =>
    exact ⟨_, _, start_of_validate_error hs h, start_of_validate_error ht (hv ▸ h),
      rfl, rfl, rfl, rfl, rfl, rfl, rfl⟩
  | ok _ =>
    exact ⟨_, _, start_of_validate_ok hs h, start_of_validate_ok ht (hv ▸ h),
      rfl, rfl, rfl, rfl, rfl, rfl, rfl⟩

/-- The error registers hold a size report's counts whole, as long as they fit (60_exceptions.md R134). -/
theorem sizeReport_counts {expected actual : Nat} (he : expected < 2 ^ 16) (ha : actual < 2 ^ 32) :
    (sizeReport expected actual).expected.toNat = expected ∧ (sizeReport expected actual).actual.toNat = actual := by
  simp only [sizeReport, BitVec.toNat_ofNat, Nat.mod_eq_of_lt he, Nat.mod_eq_of_lt ha, and_self]

theorem start_of_sizeMismatch {expected actual : Nat} (hb : s.phase ≠ .busy)
    (hv : validate m s = .error (sizeReport expected actual)) (he : expected < 2 ^ 16) (ha : actual < 2 ^ 32) :
    ∃ t, start m s = .next t ∧ t.mode = m ∧ t.phase = .error ∧ t.errCode = 2 ∧ t.errExpected.toNat = expected
      ∧ t.errActual.toNat = actual ∧ t.emitted = 0 ∧ t.unitCtr = 0 ∧ t.out = [] ∧ SameHost s t := by
  obtain ⟨hexp, hact⟩ := sizeReport_counts he ha
  exact ⟨_, start_of_validate_error hb hv, rfl, rfl, rfl, hexp, hact, rfl, rfl, rfl,
    ⟨rfl, rfl, rfl, rfl, rfl, rfl⟩, rfl, rfl⟩

/-! ### What palette mode reads -/

theorem validate_pal (hp : s.inPaletted = true) : validate Config.palWord s = palCheck s := by
  rw [validate, if_neg (by decide), if_neg (by simp [hp]), if_pos rfl]

theorem palCheck_error (hn : s.inN.toNat ≠ 32) : palCheck s = .error (sizeReport 32 s.inN.toNat) :=
  if_pos hn

/-- Palette validation reads IN_PALETTED and IN_N alone (40_palette.md R92). -/
theorem validate_pal_congr (hp : s.inPaletted = t.inPaletted) (hn : s.inN = t.inN) :
    validate Config.palWord s = validate Config.palWord t := by
  simp [validate, palCheck, hp, hn]

/-- A palette unit reads IN_N and the palette alone (40_palette.md R92). -/
theorem unitOf_pal_congr (hn : s.inN = t.inN) (hc : s.palt = t.palt) (u : Nat) :
    unitOf Config.palWord s u = unitOf Config.palWord t u := by
  simp [unitOf, unitPal, palRead, hn, hc]

theorem start_pal_of_length (hb : s.phase ≠ .busy) (hp : s.inPaletted = true) (hn : s.inN.toNat = 32) :
    start Config.palWord s = .next (enterBusy (beginRun Config.palWord s)) :=
  start_of_validate_ok hb ((validate_pal hp).trans ((palCheck_ok s).2 hn))

/-! ### The colour byte -/

/-- A mask that keeps every bit of a field leaves that field as it was. -/
theorem extractLsb'_and_of_allOnes {w i n : Nat} {v mask : BitVec w}
    (h : mask.extractLsb' i n = BitVec.allOnes n) : (v &&& mask).extractLsb' i n = v.extractLsb' i n := by
  rw [BitVec.extractLsb'_and, h, BitVec.and_allOnes]

end Sys2Proof.Machine

open Sys2Proof Sys2Proof.Machine

/-- Settles O22: START.PAL sees its inputs through validation, and neither that nor a palette unit reads the grid. -/
theorem paletteModeIgnoresGrid : Obligations.PaletteModeIgnoresGrid := by
  unfold Obligations.PaletteModeIgnoresGrid
  exact fun s w h p hb =>
    ⟨start_sameRegs (m := Config.palWord) hb hb (validate_pal_congr rfl rfl), unitOf_pal_congr rfl rfl⟩

/-- Settles O12: the palette check passes at length 32. -/
theorem startPalAdmitsThirtyTwoEntries : Obligations.StartPalAdmitsThirtyTwoEntries :=
  fun _ hb hp hn => start_pal_of_length hb hp hn

/-- Settles O14: the palette check fails at every other length, and IN_N fits ERR_ACTUAL. -/
theorem paletteLengthDecidesStartPal : Obligations.PaletteLengthDecidesStartPal := by
  unfold Obligations.PaletteLengthDecidesStartPal
  intro s hb hp
  refine ⟨fun hn => ?_, fun hn => ⟨_, start_pal_of_length hb hp hn, rfl, rfl⟩⟩
  exact start_of_sizeMismatch (m := Config.palWord) hb ((validate_pal hp).trans (palCheck_error hn)) (by decide)
    (by omega)

/-- Settles O32: the byte is its three fields side by side, and the masks keep all their bits. -/
theorem colourByteFields : Obligations.ColourByteFields := by
  unfold Obligations.ColourByteFields
  intro r g b
  refine ⟨?_, ?_, ?_, ?_⟩
  · rw [encColor_eq_append, BitVec.extractLsb'_append_eq_of_le (by decide),
      BitVec.extractLsb'_append_eq_of_le (by decide), BitVec.extractLsb'_eq_self]
  · rw [encColor_eq_append, BitVec.extractLsb'_append_eq_of_le (by decide),
      BitVec.extractLsb'_append_eq_of_add_le (by decide), BitVec.extractLsb'_eq_self]
  · rw [encColor_eq_append, BitVec.extractLsb'_append_eq_of_add_le (by decide), BitVec.extractLsb'_eq_self]
  · exact lowChannelBitsNeverReachTheOutput _ _ (extractLsb'_and_of_allOnes rfl) (extractLsb'_and_of_allOnes rfl)
      (extractLsb'_and_of_allOnes rfl)

end

section
/-! PROOFS. The band encoder's answers at every reference point (41_band_encoder.md R94, R96), and a step's under the
host's duties (70_reset_and_hazards.md R150, R151), which no read stops (41_band_encoder.md R97). -/

namespace Sys2Proof.Machine

variable {s : State} {rest : List Move}

/-! ### Pixel reads -/

theorem pixRead_ok_iff {x y : Int} :
    (∃ v, pixRead s x y = .ok v) ↔ 0 ≤ x ∧ x < s.inW.toNat ∧ 0 ≤ y ∧ y < s.inH.toNat := by
  refine ⟨fun ⟨v, hv⟩ => ?_, fun h => ⟨_, pixRead_ok h⟩⟩
  by_contra h
  rw [pixRead_error h] at hv
  cases hv

/-- All 32 points of a band can be read exactly when its two opposite corners lie in the grid
(41_band_encoder.md R96). -/
theorem bandReads_ok_iff {x y : Nat} :
    (∀ c r : Nat, c < 8 → r < 4 → ∃ v, pixRead s ((x : Int) - c) ((y : Int) - r) = .ok v)
      ↔ 7 ≤ x ∧ x < s.inW.toNat ∧ 3 ≤ y ∧ y < s.inH.toNat := by
  simp only [pixRead_ok_iff]
  constructor
  · intro h
    have hnear := h 0 0 (by decide) (by decide)
    have hfar := h 7 3 (by decide) (by decide)
    omega
  · omega

/-- The sample c columns left of and r rows above a point of the grid. -/
theorem samplePixel_sub {x y c r : Nat} (hc : c ≤ x) (hx : x < s.inW.toNat) (hr : r ≤ y) (hy : y < s.inH.toNat) :
    samplePixel s ((x : Int) - c) ((y : Int) - r) = .ok (pixelBits s (x - c) (y - r)) := by
  rw [← Nat.cast_sub hc, ← Nat.cast_sub hr]
  exact samplePixel_ok s _ _ (by omega) (by omega)

/-! ### The band -/

theorem enc8x4_ok_iff {x y : Nat} :
    (∃ l, enc8x4 s x y = .ok l) ↔ 7 ≤ x ∧ x < s.inW.toNat ∧ 3 ≤ y ∧ y < s.inH.toNat := by
  rcases enc8x4_cases s x y with ⟨hx7, hx, hy3, hy, hok⟩ | ⟨hout, herr⟩
  · simp [hok, hx7, hx, hy3, hy]
  · simp [herr, hout]

theorem enc8x4_error {x y : Nat} (h : ¬ (7 ≤ x ∧ x < s.inW.toNat ∧ 3 ≤ y ∧ y < s.inH.toNat)) :
    enc8x4 s x y = .error .pixOutOfRange := by
  rcases enc8x4_cases s x y with ⟨hx7, hx, hy3, hy, _⟩ | ⟨_, herr⟩
  · exact absurd ⟨hx7, hx, hy3, hy⟩ h
  · exact herr

/-- The byte of a column of four equal pixels (41_band_encoder.md R94). -/
def constantLane (p : BitVec 2) : Byte :=
  if p = 0 then 0x00 else if p = 1 then 0x0F else if p = 2 then 0xF0 else 0xFF

theorem lane_of_constant {q : Nat → BitVec 2} {p : BitVec 2} (h : ∀ r < 4, q r = p) : lane q = constantLane p := by
  rw [lane, h 0 (by decide), h 1 (by decide), h 2 (by decide), h 3 (by decide)]
  clear h
  decide +revert

theorem enc8x4_of_constant {x y : Nat} {p : BitVec 2} (hx7 : 7 ≤ x) (hx : x < s.inW.toNat) (hy3 : 3 ≤ y)
    (hy : y < s.inH.toNat)
    (h : ∀ c r : Nat, c < 8 → r < 4 → samplePixel s ((x : Int) - c) ((y : Int) - r) = .ok p) :
    enc8x4 s x y = .ok (List.replicate 8 (constantLane p)) := by
  have hpix {c r : Nat} (hc : c < 8) (hr : r < 4) : pixelBits s (x - c) (y - r) = p :=
    Except.ok.inj ((samplePixel_sub (by omega) hx (by omega) hy).symm.trans (h c r hc hr))
  rw [enc8x4_ok s x y hx7 hx hy3 hy]
  refine congrArg Except.ok (List.map_eq_replicate_iff.2 fun c hc => ?_)
  exact lane_of_constant fun r => hpix (List.mem_range.1 hc)

/-! ### What answers a next state -/

theorem start_of_not_busy (m : ModeWord) (hb : s.phase ≠ .busy) : ∃ t, start m s = .next t := by
  rcases start_cases m s with ⟨hbusy, _⟩ | ⟨_, _, _, h⟩ | ⟨_, _, h⟩
  · exact absurd hbusy hb
  · exact ⟨_, h⟩
  · exact ⟨_, h⟩

/-- Under the invariant a core turn never faults: the unit it computes is below TOTAL (41_band_encoder.md R97). -/
theorem coreStep_of_inv (answer : SinkAnswer) (hs : CoreInv s) : ∃ t, coreStep answer s = .next t := by
  rcases coreStep_cases answer s with ⟨_, h⟩ | ⟨hb, r, hu, _⟩ | ⟨_, _, _, _, h⟩ | ⟨_, _, _, _, _, h⟩
  · exact ⟨_, h⟩
  · obtain ⟨l, hl⟩ := unitOf_ok_of_busy hs hb
    rw [hl] at hu
    cases hu
  · exact ⟨_, h⟩
  · exact ⟨_, h⟩

theorem not_busy_of_cmd {v : Word} (hd : keepsDuties s) (ha : s.agenda = .write cmdNumber v :: rest) :
    s.phase ≠ .busy :=
  fun hb => hd _ _ ha ⟨hb, rfl⟩

theorem not_busy_of_set {w : InputWrite} (hd : keepsDuties s) (ha : s.agenda = .set w :: rest) : s.phase ≠ .busy :=
  fun hb => hd _ _ ha ⟨hb, trivial⟩

end Sys2Proof.Machine

open Sys2Proof.Machine

/-- Settles O4: move by move; the duties leave a START and a SET outside BUSY, and the invariant leaves ERR_CODE not
reserved and a BUSY turn with a unit below TOTAL. -/
theorem dutifulStepNeverFaults : Obligations.DutifulStepNeverFaults := by
  unfold Obligations.DutifulStepNeverFaults
  intro s hs hd
  have hlegal := hs.regs.errCode_legal
  rcases step_cases s with ⟨hr, _, _⟩ | ⟨_, h⟩ | ⟨v, rest, ha, h⟩ | ⟨_, _, _, _, _, h⟩ | ⟨_, _, _, h⟩
      | ⟨w, rest, ha, _⟩ | ⟨_, _, h⟩ | ⟨answer, rest, _, h⟩
  · rw [hlegal] at hr
    cases hr
  · exact ⟨_, h⟩
  · rw [h]
    exact start_of_not_busy (s := takeMove rest s) _ (not_busy_of_cmd (s := s) hd ha)
  · exact ⟨_, h⟩
  · exact ⟨_, h⟩
  · exact ⟨_, step_set hlegal (not_busy_of_set hd ha) ha⟩
  · exact ⟨_, h⟩
  · rw [h]
    exact coreStep_of_inv answer (takeMove_inv rest hs)

/-- Settles O34: each of the eight columns packs the same four pixels. -/
theorem bandOfConstantRegion : Obligations.BandOfConstantRegion := by
  unfold Obligations.BandOfConstantRegion
  intro s x y hx7 hx hy3 hy
  obtain ⟨l, hl⟩ := enc8x4_ok_iff.2 ⟨hx7, hx, hy3, hy⟩
  exact ⟨⟨l, hl, enc8x4_length s x y l hl⟩, fun p => enc8x4_of_constant hx7 hx hy3 hy⟩

/-- Settles O35: the band's corners decide its reads, and its reads its answer. -/
theorem bandReadsInRangeExactly : Obligations.BandReadsInRangeExactly := by
  unfold Obligations.BandReadsInRangeExactly
  exact fun s x y => ⟨bandReads_ok_iff.symm, enc8x4_ok_iff.symm, enc8x4_error⟩

end

section
/-! PROOFS. START.TILE and its inputs (42_tile_mode.md R102, R103, R105), and the tile image tile by tile (R99 to
R101). -/

namespace Sys2Proof.Machine

variable {s t : State} {m : ModeWord}

/-! ### The tile check -/

theorem validate_tile (hp : s.inPaletted = true) : validate Config.tileWord s = tileCheck s := by
  rw [validate, if_neg (by decide), if_neg (by simp [hp]), if_neg (by decide), if_pos rfl]

theorem tileCheck_error
    (h : s.inW.toNat % 8 ≠ 0 ∨ s.inH.toNat % 8 ≠ 0 ∨ (s.inW.toNat / 8) * (s.inH.toNat / 8) ≠ 256) :
    tileCheck s = .error (sizeReport 256 ((s.inW.toNat / 8) * (s.inH.toNat / 8))) :=
  if_pos h

theorem start_tile_of_whole_tiles (hb : s.phase ≠ .busy) (hp : s.inPaletted = true) (hw : s.inW.toNat % 8 = 0)
    (hh : s.inH.toNat % 8 = 0) (hc : (s.inW.toNat / 8) * (s.inH.toNat / 8) = 256) :
    start Config.tileWord s = .next (enterBusy (beginRun Config.tileWord s)) :=
  start_of_validate_ok hb ((validate_tile hp).trans ((tileCheck_ok s).2 ⟨hw, hh, hc⟩))

/-- Whatever W and H hold, the tile count fits ERR_ACTUAL (10_state.md R26). -/
theorem tileCount_lt (w h : BitVec 16) : (w.toNat / 8) * (h.toNat / 8) < 2 ^ 32 :=
  calc (w.toNat / 8) * (h.toNat / 8) < 2 ^ 16 * 2 ^ 16 := Nat.mul_lt_mul'' (by omega) (by omega)
    _ = 2 ^ 32 := rfl

/-! ### What the two grid modes read -/

/-- Outside palette mode validation reads IN_PALETTED, IN_W and IN_H alone (42_tile_mode.md R105; 43_sprite_mode.md
R114). -/
theorem validate_grid_congr (hm : m ≠ Config.palWord) (hp : s.inPaletted = t.inPaletted) (hw : s.inW = t.inW)
    (hh : s.inH = t.inH) : validate m s = validate m t := by
  have htile : tileCheck s = tileCheck t := by unfold tileCheck tilesInGrid; rw [hw, hh]
  have hspr : spriteCheck s = spriteCheck t := by unfold spriteCheck spritesInGrid; rw [hw, hh]
  simp only [validate, if_neg hm, hp, htile, hspr]

/-- Outside palette mode a unit reads the grid and its size alone (42_tile_mode.md R105; 43_sprite_mode.md R114). -/
theorem unitOf_grid_congr (hm : m ≠ Config.palWord) (hw : s.inW = t.inW) (hh : s.inH = t.inH) (hx : s.pix = t.pix)
    (u : Nat) : unitOf m s u = unitOf m t u := by
  have henc (x y : Nat) : enc8x4 s x y = enc8x4 t x y := by
    simp only [enc8x4, encColumn, samplePixel, pixRead, hw, hh, hx]
  simp only [unitOf, if_neg hm, unitTile, unitSprite, henc, hw]

/-! ### An image cell by cell -/

/-- Cells row by row, left to right in each row, are the cells in raster order. -/
theorem rasterCells_eq (w h : Nat) :
    (List.range h).flatMap (fun cy => (List.range w).map (fun cx => (cx, cy)))
      = (List.range (w * h)).map (fun n => (n % w, n / w)) := by
  induction h with
  | zero => rfl
  | succ h ih =>
    have hrow : (List.range w).map (fun cx => (cx, h))
        = (List.range w).map (fun cx => ((h * w + cx) % w, (h * w + cx) / w)) := by
      refine List.map_congr_left fun cx hcx => ?_
      obtain ⟨-, hx, hy⟩ := raster_index (List.mem_range.1 hcx) h.lt_succ_self
      rw [hx, hy]
    simp [List.range_succ, List.flatMap_append, ih, hrow, Nat.mul_succ, List.range_add, Nat.mul_comm w h]

/-- Where each cell is the k units that follow the stream of the cells before it, the stream of n cells is the cells
one after the other. -/
theorem streamOf_cells {cell : Nat → Except Fault (List Byte)} {k n : Nat}
    (hcell : ∀ i < n, ∃ l, cell i = .ok l ∧
      ∀ before, streamOf m s (k * i) = .ok before → streamOf m s (k * i + k) = .ok (before ++ l)) :
    ∃ cells, (List.range n).mapM cell = .ok cells ∧ cells.length = n ∧ streamOf m s (k * n) = .ok cells.flatten := by
  induction n with
  | zero => exact ⟨[], rfl, rfl, rfl⟩
  | succ n ih =>
    obtain ⟨cells, hcells, hlen, hstream⟩ := ih fun i hi => hcell i (Nat.lt_succ_of_lt hi)
    obtain ⟨l, hl, hextend⟩ := hcell n n.lt_succ_self
    refine ⟨cells ++ [l], ?_, by simp [hlen], by simpa [Nat.mul_succ] using hextend _ hstream⟩
    rw [List.range_succ, List.mapM_append, hcells, List.mapM_cons, hl]
    rfl

/-- Tile n of the raster is units 2n and 2n + 1 (42_tile_mode.md R99 to R101). -/
theorem encTile_of_units {n : Nat} {lower upper : List Byte} (hl : unitOf Config.tileWord s (2 * n) = .ok lower)
    (hu : unitOf Config.tileWord s (2 * n + 1) = .ok upper) :
    encTile s (n % (s.inW.toNat / 8)) (n / (s.inW.toNat / 8)) = .ok (lower ++ upper) := by
  have hlower := (unitOf_tile s n 0 (by decide)).symm.trans hl
  have hupper := (unitOf_tile s n 1 (by decide)).symm.trans hu
  rw [if_pos rfl] at hlower
  rw [if_neg (by decide)] at hupper
  rw [encTile, hlower, hupper]
  rfl

/-- A validated grid's 256 tiles in raster order are the tile image. -/
theorem tileImage_tiles (hv : validate Config.tileWord s = .ok ()) :
    ∃ tiles, (List.range 256).mapM (fun n => encTile s (n % (s.inW.toNat / 8)) (n / (s.inW.toNat / 8))) = .ok tiles
      ∧ tiles.length = 256 ∧ image Config.tileWord s = .ok tiles.flatten := by
  rw [image_eq_streamOf totalUnits_tile]
  refine streamOf_cells (k := 2) fun n hn => ?_
  obtain ⟨lower, hl⟩ := unitOf_ok hv totalUnits_tile (by omega : 2 * n < 512)
  obtain ⟨upper, hu⟩ := unitOf_ok hv totalUnits_tile (by omega : 2 * n + 1 < 512)
  refine ⟨lower ++ upper, encTile_of_units hl hu, fun before hb => ?_⟩
  rw [← List.append_assoc]
  exact streamOf_succ _ _ _ _ _ (streamOf_succ _ _ _ _ _ hb hl) hu

end Sys2Proof.Machine

open Sys2Proof Sys2Proof.Machine

/-- Settles O23: START.TILE sees its inputs through validation, and neither that nor a tile unit reads the palette. -/
theorem tileModeIgnoresPalette : Obligations.TileModeIgnoresPalette := by
  unfold Obligations.TileModeIgnoresPalette
  exact fun s n c hb =>
    ⟨start_sameRegs (m := Config.tileWord) hb hb (validate_grid_congr (by decide) rfl rfl rfl),
      unitOf_grid_congr (by decide) rfl rfl rfl⟩

/-- Settles O36: the rows of tiles are the tiles in raster order, and each tile is its two units. -/
theorem tileImageIsRasterOfTiles : Obligations.TileImageIsRasterOfTiles := by
  unfold Obligations.TileImageIsRasterOfTiles
  intro s hv
  obtain ⟨-, -, hc⟩ := (tileCheck_ok s).1 (tileCheck_of_validate hv)
  rw [rasterCells_eq, hc, List.mapM_map]
  exact tileImage_tiles hv

/-- Settles O11: the tile check passes on 256 whole tiles. -/
theorem startTileAdmitsValidGrid : Obligations.StartTileAdmitsValidGrid :=
  fun _ hb hp hw hh hc => start_tile_of_whole_tiles hb hp hw hh hc

/-- Settles O15: the tile check fails on every other grid, the count fits ERR_ACTUAL, and the four named grids have 256
whole tiles. -/
theorem tileCountDecidesStartTile : Obligations.TileCountDecidesStartTile := by
  unfold Obligations.TileCountDecidesStartTile
  intro s hb hp
  refine ⟨fun h => ?_, fun ⟨hw, hh, hc⟩ => ⟨_, start_tile_of_whole_tiles hb hp hw hh hc, rfl, rfl⟩, fun h => ?_⟩
  · exact start_of_sizeMismatch (m := Config.tileWord) hb ((validate_tile hp).trans (tileCheck_error h)) (by decide)
      (tileCount_lt _ _)
  · have hgrid : s.inW.toNat % 8 = 0 ∧ s.inH.toNat % 8 = 0 ∧ (s.inW.toNat / 8) * (s.inH.toNat / 8) = 256 := by
      rcases h with ⟨hw, hh⟩ | ⟨hw, hh⟩ | ⟨hw, hh⟩ | ⟨hw, hh⟩ <;> rw [hw, hh] <;> decide
    obtain ⟨hw, hh, hc⟩ := hgrid
    exact ⟨_, start_tile_of_whole_tiles hb hp hw hh hc, rfl⟩

end

section
/-! PROOFS. START.SPR and its inputs (43_sprite_mode.md R111, R112, R114), and the sprite image sprite by sprite (R107
to R110). -/

namespace Sys2Proof.Machine

variable {s : State} {m : ModeWord}

/-! ### The sprite check -/

theorem validate_spr (hp : s.inPaletted = true) : validate Config.sprWord s = spriteCheck s := by
  rw [validate, if_neg (by decide), if_neg (by simp [hp]), if_neg (by decide), if_neg (by decide)]

theorem spriteCheck_error
    (h : s.inW.toNat % 16 ≠ 0 ∨ s.inH.toNat % 16 ≠ 0 ∨ (s.inW.toNat / 16) * (s.inH.toNat / 16) ≠ 64) :
    spriteCheck s = .error (sizeReport 64 ((s.inW.toNat / 16) * (s.inH.toNat / 16))) :=
  if_pos h

theorem start_spr_of_whole_sprites (hb : s.phase ≠ .busy) (hp : s.inPaletted = true) (hw : s.inW.toNat % 16 = 0)
    (hh : s.inH.toNat % 16 = 0) (hc : (s.inW.toNat / 16) * (s.inH.toNat / 16) = 64) :
    start Config.sprWord s = .next (enterBusy (beginRun Config.sprWord s)) :=
  start_of_validate_ok hb ((validate_spr hp).trans ((spriteCheck_ok s).2 ⟨hw, hh, hc⟩))

/-- A grid has no more whole sprites than whole tiles, so the sprite count fits ERR_ACTUAL too (10_state.md R26). -/
theorem spriteCount_lt (w h : BitVec 16) : (w.toNat / 16) * (h.toNat / 16) < 2 ^ 32 :=
  calc (w.toNat / 16) * (h.toNat / 16) ≤ (w.toNat / 8) * (h.toNat / 8) := Nat.mul_le_mul (by omega) (by omega)
    _ < 2 ^ 32 := tileCount_lt w h

/-! ### What a passed check says of the grid's size -/

/-- A whole sprite is two tiles wide and two tiles high, so 64 whole sprites are 256 whole tiles (43_sprite_mode.md
R112). -/
theorem tileCheck_of_spriteCheck (h : spriteCheck s = .ok ()) : tileCheck s = .ok () := by
  obtain ⟨hw, hh, hc⟩ := (spriteCheck_ok s).1 h
  refine (tileCheck_ok s).2 ⟨by omega, by omega, ?_⟩
  have hcols : s.inW.toNat / 8 = 2 * (s.inW.toNat / 16) := by omega
  have hrows : s.inH.toNat / 8 = 2 * (s.inH.toNat / 16) := by omega
  rw [hcols, hrows, Nat.mul_mul_mul_comm, hc]

/-- A grid of n whole cells is at most n cells wide and n cells high. -/
theorem size_le_of_wholeCells {w h c n : Nat} (hw : w % c = 0) (hh : h % c = 0) (hn : (w / c) * (h / c) = n)
    (hpos : 0 < n) : w ≤ c * n ∧ h ≤ c * n := by
  have hcols : w / c ≤ n := Nat.le_of_dvd hpos (Dvd.intro _ hn)
  have hrows : h / c ≤ n := Nat.le_of_dvd hpos (Dvd.intro_left _ hn)
  constructor
  · rw [← Nat.mul_div_cancel' (Nat.dvd_of_mod_eq_zero hw)]
    exact Nat.mul_le_mul_left c hcols
  · rw [← Nat.mul_div_cancel' (Nat.dvd_of_mod_eq_zero hh)]
    exact Nat.mul_le_mul_left c hrows

/-! ### The image sprite by sprite -/

/-- Where each of the k bands is the unit at its place from unit a on, the bands are what those units add to the stream
of the units before them. -/
theorem streamOf_bands {band : Nat → Except Fault (List Byte)} {a k : Nat}
    (hband : ∀ i < k, ∃ l, band i = .ok l ∧ unitOf m s (a + i) = .ok l) :
    ∃ bands, (List.range k).mapM band = .ok bands ∧
      ∀ before, streamOf m s a = .ok before → streamOf m s (a + k) = .ok (before ++ bands.flatten) := by
  induction k with
  | zero => exact ⟨[], rfl, by simp⟩
  | succ k ih =>
    obtain ⟨bands, hbands, hextend⟩ := ih fun i hi => hband i (Nat.lt_succ_of_lt hi)
    obtain ⟨l, hl, hu⟩ := hband k k.lt_succ_self
    refine ⟨bands ++ [l], ?_, fun before hb => ?_⟩
    · rw [List.range_succ, List.mapM_append, hbands, List.mapM_cons, hl]
      rfl
    · rw [List.flatten_append, List.flatten_singleton, ← List.append_assoc]
      exact streamOf_succ _ _ _ _ _ (hextend before hb) hu

/-- The constant sprite table, sub-block by sub-block (30_encoding.md R81). -/
theorem spriteOffsets_toList : Config.spriteOffsets.toList
    = (List.range 8).map fun k => ([15, 15, 15, 15, 7, 7, 7, 7].getD k 0, [15, 3, 7, 11, 15, 3, 7, 11].getD k 0) := by
  decide

/-- A sprite is its sub-blocks' bands in table order (43_sprite_mode.md R107, R113). -/
theorem encSprite_of_bands {sx sy : Nat} {bands : List (List Byte)}
    (h : (List.range 8).mapM (fun k => enc8x4 s (16 * sx + [15, 15, 15, 15, 7, 7, 7, 7].getD k 0)
      (16 * sy + [15, 3, 7, 11, 15, 3, 7, 11].getD k 0)) = .ok bands) : encSprite s sx sy = .ok bands.flatten := by
  rw [encSprite, spriteOffsets_toList, List.mapM_map, Function.comp_def, h]
  rfl

/-- A validated grid's 64 sprites in raster order are the sprite image. -/
theorem spriteImage_sprites (hv : validate Config.sprWord s = .ok ()) :
    ∃ sprites,
      (List.range 64).mapM (fun n => encSprite s (n % (s.inW.toNat / 16)) (n / (s.inW.toNat / 16))) = .ok sprites
      ∧ sprites.length = 64 ∧ image Config.sprWord s = .ok sprites.flatten := by
  rw [image_eq_streamOf totalUnits_spr]
  refine streamOf_cells (k := 8) fun n hn => ?_
  obtain ⟨bands, hbands, hextend⟩ := streamOf_bands (k := 8) fun k hk => by
    obtain ⟨l, hl⟩ := unitOf_ok hv totalUnits_spr (by omega : 8 * n + k < 512)
    exact ⟨l, (unitOf_spr s n k hk).symm.trans hl, hl⟩
  exact ⟨bands.flatten, encSprite_of_bands hbands, hextend⟩

end Sys2Proof.Machine

open Sys2Proof Sys2Proof.Machine

/-- Settles O24: START.SPR sees its inputs through validation, and neither that nor a sprite unit reads the palette. -/
theorem spriteModeIgnoresPalette : Obligations.SpriteModeIgnoresPalette := by
  unfold Obligations.SpriteModeIgnoresPalette
  exact fun s n c hb =>
    ⟨start_sameRegs (m := Config.sprWord) hb hb (validate_grid_congr (by decide) rfl rfl rfl),
      unitOf_grid_congr (by decide) rfl rfl rfl⟩

/-- Settles O37: the rows of sprites are the sprites in raster order, and each sprite is its eight units. -/
theorem spriteImageIsRasterOfSprites : Obligations.SpriteImageIsRasterOfSprites := by
  unfold Obligations.SpriteImageIsRasterOfSprites
  intro s hv
  obtain ⟨-, -, hc⟩ := (spriteCheck_ok s).1 (spriteCheck_of_validate hv)
  rw [rasterCells_eq, hc, List.mapM_map]
  exact spriteImage_sprites hv

/-- Settles O57: 64 whole sprites are 256 whole tiles, and a grid of n whole cells is at most n cells wide and high. -/
theorem spriteValidGridIsTileValid : Obligations.SpriteValidGridIsTileValid := by
  unfold Obligations.SpriteValidGridIsTileValid
  refine ⟨fun s hv => ?_, fun s hv => ?_, fun s hv => ?_⟩
  · obtain ⟨hp, -⟩ := validate_ok _ s () hv
    exact (validate_tile hp).trans (tileCheck_of_spriteCheck (spriteCheck_of_validate hv))
  · obtain ⟨hw, hh, hc⟩ := (tileCheck_ok s).1 (tileCheck_of_validate hv)
    exact size_le_of_wholeCells hw hh hc (by decide)
  · obtain ⟨hw, hh, hc⟩ := (spriteCheck_ok s).1 (spriteCheck_of_validate hv)
    exact size_le_of_wholeCells hw hh hc (by decide)

/-- Settles O13: the sprite check passes on 64 whole sprites. -/
theorem startSprAdmitsValidGrid : Obligations.StartSprAdmitsValidGrid :=
  fun _ hb hp hw hh hc => start_spr_of_whole_sprites hb hp hw hh hc

/-- Settles O16: the sprite check fails on every other grid, the count fits ERR_ACTUAL, and the three named grids have
64 whole sprites. -/
theorem spriteCountDecidesStartSpr : Obligations.SpriteCountDecidesStartSpr := by
  unfold Obligations.SpriteCountDecidesStartSpr
  intro s hb hp
  refine ⟨fun h => ?_, fun ⟨hw, hh, hc⟩ => ⟨_, start_spr_of_whole_sprites hb hp hw hh hc, rfl, rfl⟩,
    fun h => ?_⟩
  · exact start_of_sizeMismatch (m := Config.sprWord) hb ((validate_spr hp).trans (spriteCheck_error h)) (by decide)
      (spriteCount_lt _ _)
  · have hgrid : s.inW.toNat % 16 = 0 ∧ s.inH.toNat % 16 = 0 ∧ (s.inW.toNat / 16) * (s.inH.toNat / 16) = 64 := by
      rcases h with ⟨hw, hh⟩ | ⟨hw, hh⟩ | ⟨hw, hh⟩ <;> rw [hw, hh] <;> decide
    obtain ⟨hw, hh, hc⟩ := hgrid
    exact ⟨_, start_spr_of_whole_sprites hb hp hw hh hc, rfl⟩

end

section
/-! PROOFS. One move of the host or one turn of the core, and all it leaves unchanged: the register read
(44_sequencer.md R123), START (R117), the accepted and the refused unit (R119 to R121), the quiescent core (R122). -/

namespace Sys2Proof.Machine

variable {s t : State} {rest : List Move}

/-! ### The turn of a quiescent core (44_sequencer.md R122) -/

theorem step_of_no_move (hr : errReserved s.errCode = false) (ha : s.agenda = []) : step s = .next s := by
  simp [step, turn, hr, ha]

theorem step_turn_of_not_busy {answer : SinkAnswer} (hr : errReserved s.errCode = false) (hb : s.phase ≠ .busy)
    (ha : s.agenda = .step answer :: rest) : step s = .next (takeMove rest s) := by
  rw [step_turn hr ha]
  exact if_neg hb

/-- A further core turn offered to a run that has ended only takes its move. -/
theorem step_furtherTurn (hr : errReserved t.errCode = false) (hb : t.phase ≠ .busy) (answer : SinkAnswer)
    (rest : List Move) : step { t with agenda := .step answer :: rest } = .next { t with agenda := rest } :=
  step_turn_of_not_busy (s := { t with agenda := .step answer :: rest }) hr hb rfl

/-! ### The turn of a BUSY core, once its unit is computed (44_sequencer.md R119, R121) -/

section

variable {l : List Byte} (hr : errReserved s.errCode = false) (hb : s.phase = .busy)
  (hu : unitOf s.mode s s.unitCtr.toNat = .ok l)
include hr hb hu

theorem step_accept_of_unit (ha : s.agenda = .step .accept :: rest) :
    step s = .next (acceptUnit l (takeMove rest s)) := by
  rw [step_turn hr ha, coreStep, if_pos (by exact hb)]
  simp only [takeMove_mode, takeMove_unitCtr, unitOf_takeMove, hu]

theorem step_refuse_of_unit {e : Word} (ha : s.agenda = .step (.refuse e) :: rest) :
    step s = .next (raise (ioReport e) (takeMove rest s)) := by
  rw [step_turn hr ha, coreStep, if_pos (by exact hb)]
  simp only [takeMove_mode, takeMove_unitCtr, unitOf_takeMove, hu]

end

/-! ### The run that ends in DONE (44_sequencer.md R120) -/

/-- The bytes of a mode's complete image (10_state.md R35). -/
theorem imageBytes {m : ModeWord} {n : Nat} (h : totalUnits m = some n) :
    n * bytesPerUnit m = if m = Config.palWord then 32 else 4096 := by
  rcases modeWord_cases m with rfl | rfl | rfl | rfl <;> cases h <;> rfl

theorem errCode_of_not_error (hs : CoreInv s) (he : s.phase ≠ .error) : s.errCode = errNone := by
  by_contra hc
  exact he (hs.regs.errCode_iff.1 hc)

/-! ### A register read (10_state.md R20, R28; 44_sequencer.md R123) -/

theorem step_read {n : Nat} (hr : errReserved s.errCode = false) (ha : s.agenda = .read n :: rest) :
    step s = .next (hostRead n (takeMove rest s)) := by
  rw [step, turn_of_agenda ha (.inl hr), makeMove]

theorem readReg_of_six_le {n : Nat} (hn : 6 ≤ n) (s : State) : readReg n s = 0 := by
  obtain ⟨k, rfl⟩ := Nat.exists_eq_add_of_le' hn
  rfl

end Sys2Proof.Machine

open Sys2Proof.Machine

/-- Settles O44: the turn to DONE accepts the last unit, and the invariant it keeps counts the image. -/
theorem completedRunHoldsTheImage : Obligations.CompletedRunHoldsTheImage := by
  unfold Obligations.CompletedRunHoldsTheImage
  intro s t hs hb h hd
  have ht := step_inv hs h
  obtain ⟨_, rest, ha, -⟩ := accept_of_step_to_done hs hb h hd
  obtain ⟨n, hn, hunit, hemitted⟩ := ht.regs.done hd
  exact ⟨⟨rest, ha⟩, hunit ▸ hn, hemitted.trans (imageBytes hn), errCode_of_not_error ht (by simp [hd]),
    image_of_step_to_done hs hb h hd, ht.run.counted (by simp [hd]), ht.run.file (.inr hd),
    step_furtherTurn ht.regs.errCode_legal (by simp [hd])⟩

/-- Settles O42: the accepted turn is acceptUnit, whose counters do not wrap under the invariant. -/
theorem acceptedStepEffect : Obligations.AcceptedStepEffect := by
  unfold Obligations.AcceptedStepEffect
  intro s rest hs hb ha
  obtain ⟨l, hu, hstep⟩ := step_accept hs hb ha
  obtain ⟨_, _, _, hunit, hemitted, _⟩ := acceptUnit_counters (takeMove_inv rest hs) hb (by simpa using hu)
  have hinputs := sameInputs_accept l rest s
  exact ⟨l, _, hu, unitOf_length _ _ _ _ hu, hstep, acceptUnit_out _ _, hemitted, hunit, phase_of_accept hs hb hu,
    acceptUnit_mode _ _, acceptUnit_errCode _ _, acceptUnit_errExpected _ _, acceptUnit_errActual _ _, hinputs,
    hinputs.sameSpaces, acceptUnit_hostReads _ _, acceptUnit_agenda _ _⟩

/-- Settles O43: the refused turn raises IO_ERROR, and no turn follows it in ERROR. -/
theorem refusedStepAborts : Obligations.RefusedStepAborts := by
  unfold Obligations.RefusedStepAborts
  intro s e rest hs hb ha
  obtain ⟨l, hu⟩ := unitOf_ok_of_busy hs hb
  have hinputs : SameInputs s (raise (ioReport e) (takeMove rest s)) := ⟨rfl, rfl, rfl, rfl, rfl, rfl⟩
  exact ⟨_, step_refuse_of_unit hs.regs.errCode_legal hb hu ha, rfl, rfl, rfl, rfl, rfl, rfl, rfl, rfl, hinputs,
    hinputs.sameSpaces, rfl, rfl, step_furtherTurn rfl (by simp)⟩

/-- Settles O20: after the writes every START makes, validation decides only the phase and the error registers. -/
theorem startFrame : Obligations.StartFrame := by
  unfold Obligations.StartFrame
  intro i s t h
  rw [exec_eq_start] at h
  obtain ⟨_, ⟨e, _, rfl⟩ | ⟨_, rfl⟩⟩ := start_next h
  · exact ⟨rfl, rfl, rfl, rfl, .inr rfl, ⟨⟨rfl, rfl, rfl, rfl, rfl, rfl⟩, rfl, rfl⟩, fun _ => rfl, fun _ => rfl⟩
  · exact ⟨rfl, rfl, rfl, rfl, .inl rfl, ⟨⟨rfl, rfl, rfl, rfl, rfl, rfl⟩, rfl, rfl⟩, fun _ => rfl, fun _ => rfl⟩

/-- Settles O46: outside BUSY a turn takes its move and no more, and a BUSY core's accepted turn counts UNIT up. -/
theorem quiescentCoreChangesNothing : Obligations.QuiescentCoreChangesNothing := by
  unfold Obligations.QuiescentCoreChangesNothing
  refine ⟨fun s hphase hr => ⟨fun a rest ha => ?_, step_of_no_move hr⟩, fun s rest hs hb ha => ?_⟩
  · have hb : s.phase ≠ .busy := by rcases hphase with h | h | h <;> simp [h]
    exact step_turn_of_not_busy hr hb ha
  · obtain ⟨l, _, hstep⟩ := step_accept hs hb ha
    refine ⟨_, hstep, ?_⟩
    rw [acceptUnit_unitCtr, takeMove_unitCtr]
    bv_omega

/-- Settles O53: the value read is readReg's, and every register is at most 32 bits wide. -/
theorem registerReadReturnsItsValue : Obligations.RegisterReadReturnsItsValue := by
  unfold Obligations.RegisterReadReturnsItsValue
  intro s n rest hr ha
  refine ⟨readReg n s, step_read hr ha, ?_, ?_, ?_, ?_, ?_, ?_, ?_⟩
  · rintro rfl; exact BitVec.toNat_setWidth_of_le (by decide)
  · rintro rfl; cases h : s.phase <;> simp [readReg, h, phaseBits]
  · rintro rfl; exact BitVec.toNat_setWidth_of_le (by decide)
  · rintro rfl; exact BitVec.toNat_setWidth_of_le (by decide)
  · rintro rfl; rfl
  · rintro rfl; exact BitVec.toNat_setWidth_of_le (by decide)
  · intro hn; rw [readReg_of_six_le hn]; rfl

end

section
/-! PROOFS. A whole run, turn by turn: it ends as the run function says (44_sequencer.md R125), within TOTAL turns
(R124). -/

namespace Sys2Proof.Machine

variable {s t : State} {m : ModeWord} {n u : Nat} {rest : List Move}

/-! ### The state after the first u units -/

/-- t is in a run of mode m on the inputs of s, of which the sink has accepted units 0 to u - 1. -/
structure UnitsAccepted (m : ModeWord) (s : State) (u : Nat) (t : State) : Prop where
  mode : t.mode = m
  inputs : SameInputs s t
  unitCtr : t.unitCtr.toNat = u
  emitted : t.emitted.toNat = u * bytesPerUnit m
  stream : streamOf m s u = .ok t.out

/-- START leaves a run of no units. -/
theorem unitsAccepted_start (m : ModeWord) (rest : List Move) (s : State) :
    UnitsAccepted m s 0 (enterBusy (beginRun m (takeMove rest s))) :=
  ⟨rfl, ⟨rfl, rfl, rfl, rfl, rfl, rfl⟩, rfl, (Nat.zero_mul _).symm, rfl⟩

/-- Under the invariant a BUSY state is UNIT units into its run. -/
theorem unitsAccepted_of_busy (hs : CoreInv s) (hb : s.phase = .busy) :
    UnitsAccepted s.mode s s.unitCtr.toNat s := by
  obtain ⟨_, _, _, hemitted⟩ := hs.regs.busy hb
  exact ⟨rfl, ⟨rfl, rfl, rfl, rfl, rfl, rfl⟩, rfl, hemitted, hs.run.stream hb⟩

/-- An accepted unit is one unit more, and no counter wraps. -/
theorem UnitsAccepted.accept {l : List Byte} (h : UnitsAccepted m s u t) (hn : totalUnits m = some n) (hu : u < n)
    (hl : unitOf m s u = .ok l) : UnitsAccepted m s (u + 1) (acceptUnit l (takeMove rest t)) := by
  obtain ⟨hn512, hbytes⟩ := totalUnits_bounds hn
  have hle : (u + 1) * bytesPerUnit m ≤ n * bytesPerUnit m := Nat.mul_le_mul_right _ hu
  exact {
    mode := by rw [acceptUnit_mode, takeMove_mode, h.mode]
    inputs := h.inputs.trans (sameInputs_accept l rest t)
    unitCtr := by
      have := h.unitCtr
      rw [acceptUnit_unitCtr, takeMove_unitCtr]
      bv_omega
    emitted := by
      have hsum : (u + 1) * bytesPerUnit m = t.emitted.toNat + l.length := by
        rw [h.emitted, unitOf_length m s u l hl, Nat.succ_mul]
      rw [acceptUnit_emitted, takeMove_emitted, BitVec.toNat_add, BitVec.toNat_ofNat, Nat.add_mod_mod, ← hsum,
        Nat.mod_eq_of_lt (by omega)]
    stream := by
      rw [acceptUnit_out, takeMove_out]
      exact streamOf_succ m s u _ _ h.stream hl }

/-- The unit that brings UNIT to TOTAL ends the run, and no other does (44_sequencer.md R120). -/
theorem UnitsAccepted.phase_accept {l : List Byte} (h : UnitsAccepted m s (u + 1) (acceptUnit l (takeMove rest t)))
    (hb : t.phase = .busy) (hn : totalUnits m = some n) :
    (acceptUnit l (takeMove rest t)).phase = if u + 1 = n then .done else .busy := by
  have hmode := h.mode
  have hunit := h.unitCtr
  rw [acceptUnit_mode] at hmode
  rw [acceptUnit_unitCtr] at hunit
  rw [acceptUnit_phase, hmode, hunit, hn, takeMove_phase, hb]
  simp only [Option.some_inj]

/-! ### The state a run ends in -/

/-- How a run of mode m on the inputs of s ends: at the first refusal, with that unit's index and error word, or, with
none, after the last unit (44_sequencer.md R125). -/
inductive RunEnds (m : ModeWord) (s : State) : Option (Nat × Word) → State → Prop where
  | refused {u : Nat} {e : Word} {t : State} : UnitsAccepted m s u t → t.phase = .error → t.errCode = errIo →
      t.errExpected = 0 → t.errActual = e → RunEnds m s (some (u, e)) t
  | completed {n : Nat} {t : State} : totalUnits m = some n → UnitsAccepted m s n t → t.phase = .done →
      t.errCode = errNone → RunEnds m s none t

theorem RunEnds.phase {r : Option (Nat × Word)} (h : RunEnds m s r t) : t.phase = .done ∨ t.phase = .error := by
  cases h with
  | refused _ hp => exact .inr hp
  | completed _ _ hp => exact .inl hp

theorem RunEnds.mode {r : Option (Nat × Word)} (h : RunEnds m s r t) : t.mode = m := by
  cases h with
  | refused ht => exact ht.mode
  | completed _ ht => exact ht.mode

/-- The first refusal of a run that still has these answers to come, its unit counted from u on. -/
def refusalFrom (u : Nat) (answers : List SinkAnswer) : Option (Nat × Word) :=
  (firstRefusal answers).map fun p => (u + p.1, p.2)

theorem refusalFrom_refuse (u : Nat) (e : Word) (answers : List SinkAnswer) :
    refusalFrom u (.refuse e :: answers) = some (u, e) := rfl

theorem refusalFrom_accept (u : Nat) (answers : List SinkAnswer) :
    refusalFrom u (.accept :: answers) = refusalFrom (u + 1) answers := by
  rw [refusalFrom, refusalFrom, firstRefusal, Option.map_map]
  exact congrArg (Option.map · _) (funext fun p => by simp [Nat.add_assoc, Nat.add_comm 1])

theorem refusalFrom_zero (answers : List SinkAnswer) : refusalFrom 0 answers = firstRefusal answers := by
  simp [refusalFrom]

/-! ### Many steps -/

theorem coreRun_of_step {M : Host.Core} {a b : M.State} (h : M.step a = .next b) (k : Nat) :
    M.run (k + 1) a = M.run k b := by
  rw [Host.Core.run, h]

theorem run_of_step (h : step s = .next t) (k : Nat) :
    Host.Core.run Sys2Proof.core (k + 1) s = Host.Core.run Sys2Proof.core k t :=
  coreRun_of_step (M := Sys2Proof.core) h k

/-- Core turns after the run has ended change nothing (44_sequencer.md R122). -/
theorem run_of_not_busy {answers : List SinkAnswer} (hr : errReserved s.errCode = false) (hb : s.phase ≠ .busy)
    (ha : s.agenda = answers.map Move.step ++ rest) :
    Host.Core.run Sys2Proof.core answers.length s = .next (takeMove rest s) := by
  induction answers generalizing s with
  | nil =>
    obtain rfl : s.agenda = rest := ha
    rfl
  | cons a as ih =>
    exact (run_of_step (step_turn_of_not_busy hr hb ha) as.length).trans
      (ih (s := takeMove (as.map Move.step ++ rest) s) hr hb rfl)

/-- A BUSY run given one core turn for each unit it has left ends as the run function says. -/
theorem run_of_busy {answers : List SinkAnswer} (hv : validate m s = .ok ()) (hn : totalUnits m = some n)
    (ht : UnitsAccepted m s u t) (hb : t.phase = .busy) (hc : t.errCode = errNone) (hu : u < n)
    (hlen : u + answers.length = n) (ha : t.agenda = answers.map Move.step ++ rest) :
    ∃ t', Host.Core.run Sys2Proof.core answers.length t = .next t' ∧ t'.agenda = rest
      ∧ RunEnds m s (refusalFrom u answers) t' := by
  induction answers generalizing u t with
  | nil =>
    rw [List.length_nil] at hlen
    omega
  | cons a as ih =>
    have hr : errReserved t.errCode = false := by rw [hc]; rfl
    obtain ⟨l, hl⟩ := unitOf_ok hv hn hu
    have hlt : unitOf t.mode t t.unitCtr.toNat = .ok l := by
      rw [ht.mode, ht.unitCtr, ← unitOf_congr ht.inputs, hl]
    cases a with
    | refuse e =>
      refine ⟨_, (run_of_step (step_refuse_of_unit hr hb hlt ha) as.length).trans
        (run_of_not_busy rfl (by simp) rfl), rfl, ?_⟩
      rw [refusalFrom_refuse]
      exact .refused ⟨ht.mode, ht.inputs.trans ⟨rfl, rfl, rfl, rfl, rfl, rfl⟩, ht.unitCtr, ht.emitted, ht.stream⟩
        rfl rfl rfl rfl
    | accept =>
      have ht' := ht.accept (rest := as.map Move.step ++ rest) hn hu hl
      have hphase := ht'.phase_accept hb hn
      have hcode : (acceptUnit l (takeMove (as.map Move.step ++ rest) t)).errCode = errNone := by simpa using hc
      rw [List.length_cons, run_of_step (step_accept_of_unit hr hb hlt ha), refusalFrom_accept]
      rw [List.length_cons] at hlen
      by_cases hlast : u + 1 = n
      · obtain rfl : as = [] := List.length_eq_zero_iff.1 (by omega)
        rw [if_pos hlast] at hphase
        exact ⟨_, rfl, by simp, .completed hn (hlast ▸ ht') hphase hcode⟩
      · rw [if_neg hlast] at hphase
        exact ih ht' hphase hcode (by omega) (by omega) (by simp)

end Sys2Proof.Machine

open Sys2Proof Sys2Proof.Machine

/-- Settles O55: the turns left are one for each unit left, and every way a run ends is DONE or ERROR. -/
theorem runEndsWithinTotalTurns : Obligations.RunEndsWithinTotalTurns := by
  unfold Obligations.RunEndsWithinTotalTurns
  intro s n answers rest hs hb hn hlen ha
  obtain ⟨n', hn', hu, -⟩ := hs.regs.busy hb
  obtain rfl : n' = n := Option.some.inj (hn'.symm.trans hn)
  obtain ⟨t, hrun, hagenda, hends⟩ := run_of_busy (hs.run.validated hb) hn (unitsAccepted_of_busy hs hb) hb
    (errCode_of_busy hs hb) hu (by omega) ha
  exact ⟨t, hrun, hends.phase, hagenda⟩

/-- Settles O56: START raises the failed check and no turn follows, or begins a run of no units, which the core turns
lead to its end. -/
theorem runFunctionAgreesWithSteps : Obligations.RunFunctionAgreesWithSteps := by
  unfold Obligations.RunFunctionAgreesWithSteps
  intro s v answers hr hb ha hlen
  have hcmd := step_cmd hr ha
  cases hv : validate (modeWordOf v) s with
  | error e =>
    have hstart := hcmd.trans (start_of_validate_error (s := takeMove _ s) hb hv)
    have hcode := (reportable_of_validate hv).code_legal
    refine ⟨_, (run_of_step hstart answers.length).trans
      (run_of_not_busy (rest := []) hcode (by simp) (by simp)), rfl, rfl, ?_, nofun, nofun⟩
    rintro _ ⟨⟩
    exact ⟨rfl, rfl, rfl, rfl, rfl, rfl⟩
  | ok _ =>
    have hstart := hcmd.trans (start_of_validate_ok (s := takeMove _ s) hb hv)
    obtain ⟨n, hn, hpos⟩ := totalUnits_of_validate hv
    obtain ⟨t, hrun, hagenda, hends⟩ := run_of_busy (rest := []) (answers := answers) hv hn
      (unitsAccepted_start _ (answers.map Move.step) s) rfl rfl hpos (by rw [hlen, hn]; simp) (by simp)
    rw [refusalFrom_zero] at hends
    refine ⟨t, (run_of_step hstart answers.length).trans hrun, hagenda, hends.mode, nofun, fun _ u e href => ?_,
      fun _ href => ?_⟩
    · rw [href] at hends
      cases hends with
      | refused ht hp hc he hact => exact ⟨hp, hc, he, hact, ht.unitCtr, ht.emitted, ht.stream⟩
    · rw [href] at hends
      cases hends with
      | completed hn ht hp hc => exact ⟨hp, hc, (image_eq_streamOf hn).trans ht.stream⟩

end

section
/-! PROOFS. What a START reports (60_exceptions.md R133, R137, R138), and the registers DONE and ERROR hold (R136,
R139). -/

namespace Sys2Proof.Machine

variable {s t : State} {m : ModeWord}

/-! ### The code of the first check that fails -/

/-- The ERR_CODE that a check's answer leaves: its report's, or NONE (10_state.md R24). -/
def checkCode : Except ErrorReport Unit → BitVec 3
  | .error e => e.code
  | .ok _ => errNone

theorem palCheck_code (s : State) : checkCode (palCheck s) = if s.inN.toNat ≠ 32 then 2 else 0 :=
  apply_ite checkCode _ _ _

theorem tileCheck_code (s : State) :
    checkCode (tileCheck s) =
      if s.inW.toNat % 8 ≠ 0 ∨ s.inH.toNat % 8 ≠ 0 ∨ (s.inW.toNat / 8) * (s.inH.toNat / 8) ≠ 256 then 2 else 0 :=
  apply_ite checkCode _ _ _

theorem spriteCheck_code (s : State) :
    checkCode (spriteCheck s) =
      if s.inW.toNat % 16 ≠ 0 ∨ s.inH.toNat % 16 ≠ 0 ∨ (s.inW.toNat / 16) * (s.inH.toNat / 16) ≠ 64 then 2 else 0 :=
  apply_ite checkCode _ _ _

/-- The code validation leaves is chosen check by check, in the order of 60_exceptions.md R138. -/
theorem validate_code (m : ModeWord) (s : State) :
    checkCode (validate m s) =
      if m = 0b11#2 then 4 else if s.inPaletted = false then 1
      else if m = 0b01#2 then checkCode (palCheck s)
      else if m = 0b00#2 then checkCode (tileCheck s) else checkCode (spriteCheck s) := by
  simp only [validate, apply_ite checkCode]
  rfl

theorem start_errCode (hb : s.phase ≠ .busy) :
    ∃ t, start m s = .next t ∧ t.errCode = checkCode (validate m s) := by
  cases hv : validate m s with
  | error e => exact ⟨_, start_of_validate_error hb hv, rfl⟩
  | ok _ => exact ⟨_, start_of_validate_ok hb hv, rfl⟩

/-- No check of START reports IO_ERROR. -/
theorem code_ne_io_of_validate {e : ErrorReport} (hv : validate m s = .error e) : e.code ≠ errIo := by
  have hcode : checkCode (validate m s) = e.code := by rw [hv]; rfl
  rw [← hcode, validate_code, palCheck_code, tileCheck_code, spriteCheck_code]
  split_ifs <;> decide

/-! ### The two checks before any size -/

theorem validate_illegal (s : State) : validate Config.illegalWord s = .error illegalModeReport :=
  if_pos rfl

theorem validate_unpaletted (hm : m ≠ Config.illegalWord) (hp : s.inPaletted = false) :
    validate m s = .error notPalettedReport := by
  rw [validate, if_neg hm, if_pos hp]

theorem encode_ne_illegal (i : Instr) : encode i ≠ Config.illegalWord := by
  cases i <;> decide

end Sys2Proof.Machine

open Sys2Proof Sys2Proof.Machine

/-- Settles O19: START leaves the code validation chooses, and of all a step can do only a refused unit brings
IO_ERROR. -/
theorem startReportsFirstFailingCheck : Obligations.StartReportsFirstFailingCheck := by
  unfold Obligations.StartReportsFirstFailingCheck
  refine ⟨fun s v rest hr hb ha => ?_, fun s t h ht hs => ?_⟩
  · obtain ⟨t, hstart, hcode⟩ := start_errCode (s := takeMove rest s) (m := modeWordOf v) hb
    rw [validate_code, palCheck_code, tileCheck_code, spriteCheck_code] at hcode
    exact ⟨t, (step_cmd hr ha).trans hstart, hcode⟩
  · cases stepResult_of_step h with
    | refuse e rest ha => exact ⟨e, rest, ha⟩
    | startFails v rest e _ _ hv => exact absurd ht (code_ne_io_of_validate hv)
    | startPasses | reset => simp at ht
    | set w rest => exact absurd ((applyInput_errCode w _).symm.trans ht) hs
    | accept l rest => exact absurd ((acceptUnit_errCode l _).symm.trans ht) hs
    | wait | otherWrite | read | quiescent => exact absurd ht hs

/-- Settles O17: a command's mode word is legal, so the palette flag is the first check to fail. -/
theorem unpalettedImageRaisesInEveryMode : Obligations.UnpalettedImageRaisesInEveryMode := by
  unfold Obligations.UnpalettedImageRaisesInEveryMode
  intro i s hb hp
  rw [exec_eq_start]
  exact ⟨_, start_of_validate_error hb (validate_unpaletted (encode_ne_illegal i) hp), rfl, rfl, rfl, rfl, rfl, rfl,
    rfl, rfl, ⟨rfl, rfl, rfl, rfl, rfl, rfl⟩, rfl, rfl⟩

/-- Settles O18: the mode word is the first check, and it fails. -/
theorem bothFlagsRaiseIllegalMode : Obligations.BothFlagsRaiseIllegalMode := by
  unfold Obligations.BothFlagsRaiseIllegalMode
  intro s v rest hr hb ha hv
  have hstart := step_cmd hr ha
  rw [hv, start_of_validate_error (s := takeMove rest s) hb (validate_illegal _)] at hstart
  exact ⟨_, hstart, rfl, rfl, rfl, rfl, rfl, rfl, rfl, rfl, ⟨rfl, rfl, rfl, rfl, rfl, rfl⟩, rfl, rfl⟩

/-- Settles O51: outside BUSY no turn has effect, and no other move than a START or a reset writes a register or the
stream. -/
theorem errorAndDoneAreHeld : Obligations.ErrorAndDoneAreHeld := by
  unfold Obligations.ErrorAndDoneAreHeld
  intro s t hphase h hcmd hreset
  have hb : s.phase ≠ .busy := by rcases hphase with hp | hp <;> simp [hp]
  cases stepResult_of_step h with
  | startFails v rest _ ha | startPasses v rest ha => exact absurd ha (hcmd v rest)
  | reset rest ha => exact absurd ha (hreset rest)
  | accept _ _ _ hbusy | refuse _ _ _ hbusy => exact absurd hbusy hb
  | set w rest => exact ⟨by constructor <;> simp, applyInput_out w _⟩
  | wait | otherWrite | read | quiescent => exact ⟨⟨rfl, rfl, rfl, rfl, rfl, rfl, rfl⟩, rfl⟩

end

section
/-! PROOFS. The host's duties while BUSY (70_reset_and_hazards.md R150, R151), the stream of a run under way (R152,
R155), RESET (R146 to R148), and a START after other runs (R156). -/

namespace Sys2Proof.Machine

variable {s : State} {rest : List Move}

/-! ### The moves that are not there while BUSY -/

theorem step_cmd_of_busy {v : Word} (hr : errReserved s.errCode = false) (hb : s.phase = .busy)
    (ha : s.agenda = .write cmdNumber v :: rest) : step s = .fault .startWhileBusy := by
  rw [step_cmd hr ha]
  exact if_pos hb

theorem step_set_of_busy {w : InputWrite} (hr : errReserved s.errCode = false) (hb : s.phase = .busy)
    (ha : s.agenda = .set w :: rest) : step s = .fault .inputChangeWhileBusy := by
  rw [step, turn_of_agenda ha (.inl hr)]
  exact if_pos hb

/-! ### The stream of a run under way -/

/-- The stream of fewer units is the beginning of the stream of more. -/
theorem streamOf_prefix {m : ModeWord} {k n : Nat} {before img : List Byte} (hk : streamOf m s k = .ok before)
    (hn : streamOf m s n = .ok img) (hle : k ≤ n) : before <+: img := by
  induction n, hle using Nat.le_induction generalizing img with
  | base => rw [Except.ok.inj (hk.symm.trans hn)]
  | succ n _ ih =>
    obtain ⟨first, last, hfirst, _, rfl⟩ := streamOf_succ_parts hn
    exact (ih hfirst).trans (List.prefix_append first last)

/-- Every unit has a byte (10_state.md R35). -/
theorem bytesPerUnit_pos (m : ModeWord) : 0 < bytesPerUnit m := by
  unfold bytesPerUnit
  split <;> decide

/-! ### The host's file after a reset (93_implementation_defined.md U13) -/

theorem fileAfterReset_of_busy (hb : s.phase = .busy) :
    fileAfterReset s = s.out ++ Config.fileTailAfterReset s.draws :=
  if_pos hb

theorem fileAfterReset_of_not_busy (hb : s.phase ≠ .busy) : fileAfterReset s = s.hostFile :=
  if_neg hb

end Sys2Proof.Machine

open Sys2Proof Sys2Proof.Machine

/-- Settles O45: the stream is the image's first UNIT units, and UNIT is below TOTAL. -/
theorem busyStreamIsPrefixOfImage : Obligations.BusyStreamIsPrefixOfImage := by
  unfold Obligations.BusyStreamIsPrefixOfImage
  intro s hs hb
  obtain ⟨n, hn, hlt, hemitted⟩ := hs.regs.busy hb
  obtain ⟨img, himg, hlen, -⟩ := image_units (hs.run.validated hb) hn
  have hprefix : s.out <+: img :=
    streamOf_prefix (hs.run.stream hb) ((image_eq_streamOf hn).symm.trans himg) hlt.le
  refine ⟨img, himg, ?_, ?_⟩
  · rw [← hs.run.counted (by simp [hb])]
    exact List.prefix_iff_eq_take.1 hprefix
  · rw [hemitted, hlen]
    exact Nat.mul_lt_mul_of_pos_right hlt (bytesPerUnit_pos _)

/-- Settles O21: the registers a START sets rest on validation's answer, which rests on the inputs, and every START
gives an empty stream. -/
theorem everyRunStartsAfresh : Obligations.EveryRunStartsAfresh := by
  unfold Obligations.EveryRunStartsAfresh
  intro i s s' hb hb' hinputs
  simp only [exec_eq_start]
  obtain ⟨t, t', ht, ht', hregs⟩ := start_sameRegs hb hb' (validate_congr hinputs (encode i))
  exact ⟨t, t', ht, ht', hregs, (out_of_start ht).trans (out_of_start ht').symm⟩

/-- Settles O5: neither START nor SET has a next state while BUSY. -/
theorem dutyBreachHasNoMove : Obligations.DutyBreachHasNoMove :=
  fun _ _ hb hr => ⟨fun _ => step_cmd_of_busy hr hb, fun _ => step_set_of_busy hr hb⟩

/-- Settles O52: a reset is resetCore in every state, and only the host's file asks whether a run was under way. -/
theorem resetEffect : Obligations.ResetEffect := by
  unfold Obligations.ResetEffect
  intro s rest ha
  have hinputs : SameInputs s (resetCore (takeMove rest s)) := ⟨rfl, rfl, rfl, rfl, rfl, rfl⟩
  refine ⟨_, step_reset ha, ⟨rfl, rfl, rfl, rfl, rfl, rfl, rfl⟩, hinputs, hinputs.sameSpaces, rfl, fun hb => ?_,
    fun hb => ?_, rfl, rfl⟩
  · exact fileAfterReset_of_not_busy (s := takeMove rest s) hb
  · rw [resetCore_hostFile, fileAfterReset_of_busy (by exact hb), takeMove_out]
    exact List.prefix_append _ _

end
